-- ==== Sys2Proof/Word.lean ====
section
/-! DEFINITION. The machine's basic types: bytes, 16-bit words, 4-bit fields, register and key numbers
(00_scope.md R9, R12, R13). -/

namespace Sys2Proof

/-- One byte of memory, one general register, one timer (R9: 8 bits). -/
abbrev Byte := BitVec 8

/-- `I`, `PC`, a stack slot, an opcode (R9: 16 bits). -/
abbrev Word := BitVec 16

/-- A 4-bit slice of an opcode (R17). -/
abbrev Nibble := BitVec 4

/-- A 12-bit address field `nnn` (R111). -/
abbrev Addr12 := BitVec 12

/-- The number of a general register, `V0`..`VF` (R32). -/
abbrev Reg := Fin 16

/-- A key index `0x0`..`0xF` (R42). -/
abbrev Key := Fin 16

/-- The number of the flag register `VF` (R33). -/
abbrev regF : Reg := 15

end Sys2Proof
end

