-- ==== Sys2Proof/Config.lean ====
section
/-! DEFINITION. What an implementation of the core fixes: the constants of 00_scope.md R9, the four parameters of
R10, and the free values the spec leaves open (the draws of 40_cycle.md R150 and 42_alu.md R231). -/

namespace Sys2Proof

/-- `MEM_SIZE`: addresses `0x000`..`0xFFF` (R9, R80). -/
abbrev Config.memSize : Nat := 0x1000

/-- `PROGRAM_BASE`, also the reset value of `PC` (R9). -/
abbrev Config.programBase : Nat := 0x200

/-- `MAX_ROM_BYTES` (R9). -/
abbrev Config.maxRomBytes : Nat := 3584

/-- The size of the font table, which occupies `0x000`..`0x04F` (R9). -/
abbrev Config.fontBytes : Nat := 80

/-- `UNKNOWN_OPCODE_POLICY` (R10, decision D4). -/
inductive UnknownOpcodePolicy where
  | strict
  | lenient
  deriving DecidableEq, Repr

/-- `TIMER_COUPLING` (R10, decision D6). -/
inductive TimerCoupling where
  | coupled
  | decoupled
  deriving DecidableEq, Repr

/-- `FLAG_WRITE_ORDER` (R10, decision D9). -/
inductive FlagWriteOrder where
  | flagLast
  | resultLast
  | anyValue
  deriving DecidableEq, Repr

/-- `FONT`: an 80-byte table, glyph `k` at bytes `5k`..`5k+4` (R10, decision D17). -/
abbrev Font := Vector Byte Config.fontBytes

/-- The parameters "the model takes as arguments" (R10). -/
structure Params where
  unknownOpcode : UnknownOpcodePolicy
  timerCoupling : TimerCoupling
  flagOrder     : FlagWriteOrder
  font          : Font
  deriving DecidableEq, Repr

/-- FREE VALUE: the host's key vector in a cycle nobody scripted, a draw under no law (40_cycle.md R150, 93 U8).
Its argument is the draw counter of the state. Log entry 6. -/
opaque Config.freeKeys : Nat → Vector Bool 16

/-- FREE VALUE: the random byte of a cycle nobody scripted, a draw under no law (40_cycle.md R150, 93 U6).
Log entry 6. -/
opaque Config.freeRand : Nat → Byte

/-- FREE VALUE: the byte `d` that `VF` keeps under `AnyValue` (42_alu.md R231, 93 U7). Log entry 6. -/
opaque Config.freeFlag : Nat → Byte

end Sys2Proof
end

