-- ==== Sys2Proof/Syntax.lean ====
section
/-! DEFINITION. The instruction set as syntax: one constructor per row of spec/opcode_table.json (30_encoding.md
R121). The operand types carry the field widths of R111: `x`, `y` register numbers, `n` a 4-bit count, `nn` an 8-bit
immediate, `nnn` a 12-bit address. -/

namespace Sys2Proof

inductive Instr where
  /-- `00E0` CLS: clear the display (R322). -/
  | cls
  /-- `00EE` RET: return from subroutine (R190). -/
  | ret
  /-- `1nnn` JP nnn: jump (R191). -/
  | jp (nnn : Addr12)
  /-- `2nnn` CALL nnn: call subroutine (R192). -/
  | call (nnn : Addr12)
  /-- `3xnn` SE Vx, nn: skip if equal (R193). -/
  | seImm (x : Reg) (nn : Byte)
  /-- `4xnn` SNE Vx, nn: skip if not equal (R194). -/
  | sneImm (x : Reg) (nn : Byte)
  /-- `5xy0` SE Vx, Vy: skip if registers equal (R195). -/
  | seReg (x y : Reg)
  /-- `6xnn` LD Vx, nn: load immediate (R232). -/
  | ldImm (x : Reg) (nn : Byte)
  /-- `7xnn` ADD Vx, nn: add immediate (R233). -/
  | addImm (x : Reg) (nn : Byte)
  /-- `8xy0` LD Vx, Vy: copy (R234). -/
  | ldReg (x y : Reg)
  /-- `8xy1` OR Vx, Vy (R235). -/
  | orReg (x y : Reg)
  /-- `8xy2` AND Vx, Vy (R236). -/
  | andReg (x y : Reg)
  /-- `8xy3` XOR Vx, Vy (R237). -/
  | xorReg (x y : Reg)
  /-- `8xy4` ADD Vx, Vy: add with carry (R238). -/
  | addReg (x y : Reg)
  /-- `8xy5` SUB Vx, Vy (R239). -/
  | sub (x y : Reg)
  /-- `8xy6` SHR Vx, Vy: the `y` field is encoded and ignored (R240). -/
  | shr (x y : Reg)
  /-- `8xy7` SUBN Vx, Vy: reverse subtract (R241). -/
  | subn (x y : Reg)
  /-- `8xyE` SHL Vx, Vy: the `y` field is encoded and ignored (R242). -/
  | shl (x y : Reg)
  /-- `9xy0` SNE Vx, Vy: skip if registers differ (R196). -/
  | sneReg (x y : Reg)
  /-- `Annn` LD I, nnn (R280). -/
  | ldI (nnn : Addr12)
  /-- `Bnnn` JP V0, nnn: jump with offset (R197). -/
  | jpV0 (nnn : Addr12)
  /-- `Cxnn` RND Vx, nn (R243). -/
  | rnd (x : Reg) (nn : Byte)
  /-- `Dxyn` DRW Vx, Vy, n: draw sprite (R324). -/
  | drw (x y : Reg) (n : Nibble)
  /-- `Ex9E` SKP Vx: skip if key down (R363). -/
  | skp (x : Reg)
  /-- `ExA1` SKNP Vx: skip if key up (R364). -/
  | sknp (x : Reg)
  /-- `Fx07` LD Vx, DT (R393). -/
  | ldVxDt (x : Reg)
  /-- `Fx0A` LD Vx, K: wait for a key press (R365). -/
  | ldVxK (x : Reg)
  /-- `Fx15` LD DT, Vx (R394). -/
  | ldDtVx (x : Reg)
  /-- `Fx18` LD ST, Vx (R395). -/
  | ldStVx (x : Reg)
  /-- `Fx1E` ADD I, Vx (R281). -/
  | addIVx (x : Reg)
  /-- `Fx29` LD F, Vx: point `I` at a glyph (R282). -/
  | ldFVx (x : Reg)
  /-- `Fx33` LD B, Vx: store BCD (R283). -/
  | ldBVx (x : Reg)
  /-- `Fx55` LD [I], Vx: store registers (R285). -/
  | ldMemVx (x : Reg)
  /-- `Fx65` LD Vx, [I]: load registers (R286). -/
  | ldVxMem (x : Reg)
  deriving DecidableEq, Repr

end Sys2Proof
end

