-- ==== Sys2Proof/WellFormed.lean ====
section
/-! DEFINITION. Well-formedness. The operand types of `Instr` already carry the field widths of 30_encoding.md R111,
and no word of the opcode map has a reserved operand value (R123), so every `Instr` term is well formed; the checks
below are made on operands given as plain numbers (R127: an assembler's operands) and on a ROM image (R463). -/

namespace Sys2Proof

/-- The operand numbers of R111, unchecked. A field an instruction does not have is 0. -/
structure Operands where
  x   : Nat := 0
  y   : Nat := 0
  n   : Nat := 0
  nn  : Nat := 0
  nnn : Nat := 0
  deriving DecidableEq, Repr

/-- `x` and `y` are register numbers 0..15, `n` a count 0..15, `nn` an 8-bit and `nnn` a 12-bit value (R111, R113). -/
def Operands.wellFormed (o : Operands) : Bool :=
  decide (o.x < 16) && decide (o.y < 16) && decide (o.n < 16) && decide (o.nn < 256) && decide (o.nnn < 4096)

/-- The operand numbers an instruction carries. -/
def Instr.operands : Instr → Operands
  | .cls => {}
  | .ret => {}
  | .jp nnn => { nnn := nnn.toNat }
  | .call nnn => { nnn := nnn.toNat }
  | .seImm x nn => { x := x, nn := nn.toNat }
  | .sneImm x nn => { x := x, nn := nn.toNat }
  | .seReg x y => { x := x, y := y }
  | .ldImm x nn => { x := x, nn := nn.toNat }
  | .addImm x nn => { x := x, nn := nn.toNat }
  | .ldReg x y => { x := x, y := y }
  | .orReg x y => { x := x, y := y }
  | .andReg x y => { x := x, y := y }
  | .xorReg x y => { x := x, y := y }
  | .addReg x y => { x := x, y := y }
  | .sub x y => { x := x, y := y }
  | .shr x y => { x := x, y := y }
  | .subn x y => { x := x, y := y }
  | .shl x y => { x := x, y := y }
  | .sneReg x y => { x := x, y := y }
  | .ldI nnn => { nnn := nnn.toNat }
  | .jpV0 nnn => { nnn := nnn.toNat }
  | .rnd x nn => { x := x, nn := nn.toNat }
  | .drw x y n => { x := x, y := y, n := n.toNat }
  | .skp x => { x := x }
  | .sknp x => { x := x }
  | .ldVxDt x => { x := x }
  | .ldVxK x => { x := x }
  | .ldDtVx x => { x := x }
  | .ldStVx x => { x := x }
  | .addIVx x => { x := x }
  | .ldFVx x => { x := x }
  | .ldBVx x => { x := x }
  | .ldMemVx x => { x := x }
  | .ldVxMem x => { x := x }

/-- An instruction is well formed when its operand numbers fit their fields. -/
def Instr.wellFormed (i : Instr) : Bool := i.operands.wellFormed

/-- "The host must supply a ROM of at most 3584 bytes" (70_reset_and_hazards.md R463). -/
def romWellFormed (rom : List Byte) : Bool := decide (rom.length ≤ Config.maxRomBytes)

end Sys2Proof
end

