-- ==== Sys2Proof/Decode.lean ====
section
/-! DEFINITION. The decoder and the encoder (30_encoding.md): the fields of an opcode, decoding by family (R116),
the opcode map as data (R121), decoding from bytes in memory order (R86, R110), and the encoder. -/

namespace Sys2Proof

/-- Why a decoder rejects its input. -/
inductive DecodeError where
  /-- The word is none of the 34 instructions, the spec's `Unknown` (R114, R122). -/
  | unknown (op : Word)
  /-- Fewer than the two bytes of an opcode are there (R110: a decoder always consumes exactly two). -/
  | truncated
  deriving DecidableEq, Repr

/-! ## Fields (R111) -/

/-- The top nibble `op[15:12]`. -/
def fieldT (op : Word) : Nibble := op.extractLsb' 12 4

/-- `x = op[11:8]`. -/
def fieldX (op : Word) : Reg := (op.extractLsb' 8 4).toFin

/-- `y = op[7:4]`. -/
def fieldY (op : Word) : Reg := (op.extractLsb' 4 4).toFin

/-- `n = op[3:0]`. -/
def fieldN (op : Word) : Nibble := op.extractLsb' 0 4

/-- `nn = op[7:0]`. -/
def fieldNN (op : Word) : Byte := op.extractLsb' 0 8

/-- `nnn = op[11:0]`. -/
def fieldNNN (op : Word) : Addr12 := op.extractLsb' 0 12

/-! ## Decoding by family (R116) -/

/-- Family 8: the low nibble selects the operation. -/
def decode8 (op : Word) : Except DecodeError Instr :=
  match fieldN op with
  | 0x0#4 => .ok (.ldReg (fieldX op) (fieldY op))
  | 0x1#4 => .ok (.orReg (fieldX op) (fieldY op))
  | 0x2#4 => .ok (.andReg (fieldX op) (fieldY op))
  | 0x3#4 => .ok (.xorReg (fieldX op) (fieldY op))
  | 0x4#4 => .ok (.addReg (fieldX op) (fieldY op))
  | 0x5#4 => .ok (.sub (fieldX op) (fieldY op))
  | 0x6#4 => .ok (.shr (fieldX op) (fieldY op))
  | 0x7#4 => .ok (.subn (fieldX op) (fieldY op))
  | 0xE#4 => .ok (.shl (fieldX op) (fieldY op))
  | _ => .error (.unknown op)

/-- Family E: the low byte selects the key test. -/
def decodeE (op : Word) : Except DecodeError Instr :=
  match fieldNN op with
  | 0x9E#8 => .ok (.skp (fieldX op))
  | 0xA1#8 => .ok (.sknp (fieldX op))
  | _ => .error (.unknown op)

/-- Family F: the low byte selects the operation. -/
def decodeF (op : Word) : Except DecodeError Instr :=
  match fieldNN op with
  | 0x07#8 => .ok (.ldVxDt (fieldX op))
  | 0x0A#8 => .ok (.ldVxK (fieldX op))
  | 0x15#8 => .ok (.ldDtVx (fieldX op))
  | 0x18#8 => .ok (.ldStVx (fieldX op))
  | 0x1E#8 => .ok (.addIVx (fieldX op))
  | 0x29#8 => .ok (.ldFVx (fieldX op))
  | 0x33#8 => .ok (.ldBVx (fieldX op))
  | 0x55#8 => .ok (.ldMemVx (fieldX op))
  | 0x65#8 => .ok (.ldVxMem (fieldX op))
  | _ => .error (.unknown op)

/-- Family 0: only the exact words `00E0` and `00EE` are instructions (R115, R124). -/
def decode0 (op : Word) : Except DecodeError Instr :=
  match op with
  | 0x00E0#16 => .ok .cls
  | 0x00EE#16 => .ok .ret
  | _ => .error (.unknown op)

/-- The total decoder of R114, family by family as R116 writes it. It reads only the opcode. -/
def decode (op : Word) : Except DecodeError Instr :=
  match fieldT op with
  | 0x0#4 => decode0 op
  | 0x1#4 => .ok (.jp (fieldNNN op))
  | 0x2#4 => .ok (.call (fieldNNN op))
  | 0x3#4 => .ok (.seImm (fieldX op) (fieldNN op))
  | 0x4#4 => .ok (.sneImm (fieldX op) (fieldNN op))
  | 0x5#4 => if fieldN op = 0x0#4 then .ok (.seReg (fieldX op) (fieldY op)) else .error (.unknown op)
  | 0x6#4 => .ok (.ldImm (fieldX op) (fieldNN op))
  | 0x7#4 => .ok (.addImm (fieldX op) (fieldNN op))
  | 0x8#4 => decode8 op
  | 0x9#4 => if fieldN op = 0x0#4 then .ok (.sneReg (fieldX op) (fieldY op)) else .error (.unknown op)
  | 0xA#4 => .ok (.ldI (fieldNNN op))
  | 0xB#4 => .ok (.jpV0 (fieldNNN op))
  | 0xC#4 => .ok (.rnd (fieldX op) (fieldNN op))
  | 0xD#4 => .ok (.drw (fieldX op) (fieldY op) (fieldN op))
  | 0xE#4 => decodeE op
  | _ => decodeF op

/-! ## Bytes (R86, R110) -/

/-- The big-endian opcode `{hi, lo} = hi * 256 + lo` of two consecutive bytes (R86). -/
def wordOfBytes (hi lo : Byte) : Word := BitVec.ofNat 16 (hi.toNat * 256 + lo.toNat)

/-- The byte of an opcode that stands at the lower address. -/
def highByte (op : Word) : Byte := op.extractLsb' 8 8

/-- The byte of an opcode that stands at the higher address. -/
def lowByte (op : Word) : Byte := op.extractLsb' 0 8

/-- Decoding from bytes in memory order: exactly two are consumed (R110). -/
def decodeBytes : List Byte → Except DecodeError (Instr × List Byte)
  | hi :: lo :: rest =>
    match decode (wordOfBytes hi lo) with
    | .ok i => .ok (i, rest)
    | .error e => .error e
  | _ => .error .truncated

/-- The instruction the decoder reads from a row of the opcode table with bits `w`, laid out in memory as the
hardware stores it. An instruction is one 16-bit word (R110), so more than 16 bits is none. -/
def decodeTableWord (nbits w : Nat) : Option Instr :=
  if nbits ≤ 16 then
    let op : Word := BitVec.ofNat 16 (w % 2 ^ nbits)
    match decodeBytes [highByte op, lowByte op] with
    | .ok (i, []) => some i
    | _ => none
  else none

/-! ## Encoding (R112, R121) -/

/-- The four bits that encode a register number. -/
def regBits (x : Reg) : Nibble := BitVec.ofFin x

/-- Format A: `tttt nnnn nnnn nnnn`. -/
def packA (t : Nibble) (nnn : Addr12) : Word := (t ++ nnn : BitVec (4 + 12))

/-- Format XB: `tttt xxxx bbbb bbbb`; format X is the same with the low byte fixed. -/
def packXB (t : Nibble) (x : Reg) (b : Byte) : Word := (t ++ regBits x ++ b : BitVec (4 + 4 + 8))

/-- Formats XY and XYN: `tttt xxxx yyyy ffff`. -/
def packXY (t : Nibble) (x y : Reg) (f : Nibble) : Word :=
  (t ++ regBits x ++ regBits y ++ f : BitVec (4 + 4 + 4 + 4))

/-- The opcode of an instruction. -/
def encode : Instr → Word
  | .cls => 0x00E0#16
  | .ret => 0x00EE#16
  | .jp nnn => packA 0x1#4 nnn
  | .call nnn => packA 0x2#4 nnn
  | .seImm x nn => packXB 0x3#4 x nn
  | .sneImm x nn => packXB 0x4#4 x nn
  | .seReg x y => packXY 0x5#4 x y 0x0#4
  | .ldImm x nn => packXB 0x6#4 x nn
  | .addImm x nn => packXB 0x7#4 x nn
  | .ldReg x y => packXY 0x8#4 x y 0x0#4
  | .orReg x y => packXY 0x8#4 x y 0x1#4
  | .andReg x y => packXY 0x8#4 x y 0x2#4
  | .xorReg x y => packXY 0x8#4 x y 0x3#4
  | .addReg x y => packXY 0x8#4 x y 0x4#4
  | .sub x y => packXY 0x8#4 x y 0x5#4
  | .shr x y => packXY 0x8#4 x y 0x6#4
  | .subn x y => packXY 0x8#4 x y 0x7#4
  | .shl x y => packXY 0x8#4 x y 0xE#4
  | .sneReg x y => packXY 0x9#4 x y 0x0#4
  | .ldI nnn => packA 0xA#4 nnn
  | .jpV0 nnn => packA 0xB#4 nnn
  | .rnd x nn => packXB 0xC#4 x nn
  | .drw x y n => packXY 0xD#4 x y n
  | .skp x => packXB 0xE#4 x 0x9E#8
  | .sknp x => packXB 0xE#4 x 0xA1#8
  | .ldVxDt x => packXB 0xF#4 x 0x07#8
  | .ldVxK x => packXB 0xF#4 x 0x0A#8
  | .ldDtVx x => packXB 0xF#4 x 0x15#8
  | .ldStVx x => packXB 0xF#4 x 0x18#8
  | .addIVx x => packXB 0xF#4 x 0x1E#8
  | .ldFVx x => packXB 0xF#4 x 0x29#8
  | .ldBVx x => packXB 0xF#4 x 0x33#8
  | .ldMemVx x => packXB 0xF#4 x 0x55#8
  | .ldVxMem x => packXB 0xF#4 x 0x65#8

/-! ## The opcode map as data (R121) -/

/-- One row of R121: a word `op` selects the row when `(op AND mask) = pattern`. -/
structure OpcodeRow where
  mask    : Word
  pattern : Word
  deriving DecidableEq, Repr

/-- Whether a word selects a row (R121). -/
def OpcodeRow.selects (r : OpcodeRow) (op : Word) : Bool := (op &&& r.mask) == r.pattern

/-- The row of the opcode map an instruction belongs to. -/
def Instr.row : Instr → OpcodeRow
  | .cls => ⟨0xFFFF#16, 0x00E0#16⟩
  | .ret => ⟨0xFFFF#16, 0x00EE#16⟩
  | .jp _ => ⟨0xF000#16, 0x1000#16⟩
  | .call _ => ⟨0xF000#16, 0x2000#16⟩
  | .seImm _ _ => ⟨0xF000#16, 0x3000#16⟩
  | .sneImm _ _ => ⟨0xF000#16, 0x4000#16⟩
  | .seReg _ _ => ⟨0xF00F#16, 0x5000#16⟩
  | .ldImm _ _ => ⟨0xF000#16, 0x6000#16⟩
  | .addImm _ _ => ⟨0xF000#16, 0x7000#16⟩
  | .ldReg _ _ => ⟨0xF00F#16, 0x8000#16⟩
  | .orReg _ _ => ⟨0xF00F#16, 0x8001#16⟩
  | .andReg _ _ => ⟨0xF00F#16, 0x8002#16⟩
  | .xorReg _ _ => ⟨0xF00F#16, 0x8003#16⟩
  | .addReg _ _ => ⟨0xF00F#16, 0x8004#16⟩
  | .sub _ _ => ⟨0xF00F#16, 0x8005#16⟩
  | .shr _ _ => ⟨0xF00F#16, 0x8006#16⟩
  | .subn _ _ => ⟨0xF00F#16, 0x8007#16⟩
  | .shl _ _ => ⟨0xF00F#16, 0x800E#16⟩
  | .sneReg _ _ => ⟨0xF00F#16, 0x9000#16⟩
  | .ldI _ => ⟨0xF000#16, 0xA000#16⟩
  | .jpV0 _ => ⟨0xF000#16, 0xB000#16⟩
  | .rnd _ _ => ⟨0xF000#16, 0xC000#16⟩
  | .drw _ _ _ => ⟨0xF000#16, 0xD000#16⟩
  | .skp _ => ⟨0xF0FF#16, 0xE09E#16⟩
  | .sknp _ => ⟨0xF0FF#16, 0xE0A1#16⟩
  | .ldVxDt _ => ⟨0xF0FF#16, 0xF007#16⟩
  | .ldVxK _ => ⟨0xF0FF#16, 0xF00A#16⟩
  | .ldDtVx _ => ⟨0xF0FF#16, 0xF015#16⟩
  | .ldStVx _ => ⟨0xF0FF#16, 0xF018#16⟩
  | .addIVx _ => ⟨0xF0FF#16, 0xF01E#16⟩
  | .ldFVx _ => ⟨0xF0FF#16, 0xF029#16⟩
  | .ldBVx _ => ⟨0xF0FF#16, 0xF033#16⟩
  | .ldMemVx _ => ⟨0xF0FF#16, 0xF055#16⟩
  | .ldVxMem _ => ⟨0xF0FF#16, 0xF065#16⟩

/-- The complete opcode map in the order of R121: 34 rows. -/
def opcodeTable : List OpcodeRow :=
  [⟨0xFFFF#16, 0x00E0#16⟩, ⟨0xFFFF#16, 0x00EE#16⟩, ⟨0xF000#16, 0x1000#16⟩, ⟨0xF000#16, 0x2000#16⟩,
   ⟨0xF000#16, 0x3000#16⟩, ⟨0xF000#16, 0x4000#16⟩, ⟨0xF00F#16, 0x5000#16⟩, ⟨0xF000#16, 0x6000#16⟩,
   ⟨0xF000#16, 0x7000#16⟩] ++
  [⟨0xF00F#16, 0x8000#16⟩, ⟨0xF00F#16, 0x8001#16⟩, ⟨0xF00F#16, 0x8002#16⟩, ⟨0xF00F#16, 0x8003#16⟩,
   ⟨0xF00F#16, 0x8004#16⟩, ⟨0xF00F#16, 0x8005#16⟩, ⟨0xF00F#16, 0x8006#16⟩, ⟨0xF00F#16, 0x8007#16⟩,
   ⟨0xF00F#16, 0x800E#16⟩] ++
  [⟨0xF00F#16, 0x9000#16⟩, ⟨0xF000#16, 0xA000#16⟩, ⟨0xF000#16, 0xB000#16⟩, ⟨0xF000#16, 0xC000#16⟩,
   ⟨0xF000#16, 0xD000#16⟩, ⟨0xF0FF#16, 0xE09E#16⟩, ⟨0xF0FF#16, 0xE0A1#16⟩] ++
  [⟨0xF0FF#16, 0xF007#16⟩, ⟨0xF0FF#16, 0xF00A#16⟩, ⟨0xF0FF#16, 0xF015#16⟩, ⟨0xF0FF#16, 0xF018#16⟩,
   ⟨0xF0FF#16, 0xF01E#16⟩, ⟨0xF0FF#16, 0xF029#16⟩, ⟨0xF0FF#16, 0xF033#16⟩, ⟨0xF0FF#16, 0xF055#16⟩,
   ⟨0xF0FF#16, 0xF065#16⟩]

end Sys2Proof
end

