-- ==== Sys2Proof/Machine/Font.lean ====
section
/-! DEFINITION. The default value of the parameter `FONT` (00_scope.md R11) and the default parameters (R10). -/

namespace Sys2Proof.Machine

/-- Glyphs 0 to 7 of the table of R11, five bytes each. -/
def glyphsLow : Vector Byte 40 :=
  #v[0xF0, 0x90, 0x90, 0x90, 0xF0,  0x20, 0x60, 0x20, 0x20, 0x70,
     0xF0, 0x10, 0xF0, 0x80, 0xF0,  0xF0, 0x10, 0xF0, 0x10, 0xF0,
     0x90, 0x90, 0xF0, 0x10, 0x10,  0xF0, 0x80, 0xF0, 0x10, 0xF0,
     0xF0, 0x80, 0xF0, 0x90, 0xF0,  0xF0, 0x10, 0x20, 0x40, 0x40]

/-- Glyphs 8 to F of the table of R11, five bytes each. -/
def glyphsHigh : Vector Byte 40 :=
  #v[0xF0, 0x90, 0xF0, 0x90, 0xF0,  0xF0, 0x90, 0xF0, 0x10, 0xF0,
     0xF0, 0x90, 0xF0, 0x90, 0x90,  0xE0, 0x90, 0xE0, 0x90, 0xE0,
     0xF0, 0x80, 0x80, 0x80, 0xF0,  0xE0, 0x90, 0x90, 0x90, 0xE0,
     0xF0, 0x80, 0xF0, 0x80, 0xF0,  0xF0, 0x80, 0xF0, 0x80, 0x80]

/-- The conventional hexadecimal font, the spec's default for `FONT` (R11). PRESUMED: the spec marks the bytes as
general knowledge, log entry 2. -/
def defaultFont : Font := glyphsLow ++ glyphsHigh

/-- The defaults of R10: `Strict`, `Coupled`, `FlagLast`, the font of R11. -/
def defaultParams : Params :=
  { unknownOpcode := .strict, timerCoupling := .coupled, flagOrder := .flagLast, font := defaultFont }

end Sys2Proof.Machine
end

