-- ==== Sys2Proof/Machine/State.lean ====
section
/-! DEFINITION. The state of the core (10_state.md R30), the error record (60_exceptions.md R427), the host
operations (40_cycle.md R160), and the state after reset (10_state.md R47). All of it is plain data. -/

namespace Sys2Proof.Machine

/-- Reasons for which the machine stops with no next state. The spec has none: every error of 60_exceptions.md is a
state of the core (`Exec = Faulted` with its record, R426), so this type has no constructor and no step answers a
fault. Log entry 7. -/
inductive Fault : Type
  deriving DecidableEq, Repr

/-- Reasons for which the model gives no meaning. -/
inductive Refusal where
  /-- Raised by `exec` for an instruction whose meaning is not written yet. Safe. No arm raises it now. -/
  | notModelled (mnemonic : String)
  /-- Raised by the host operation `timer_tick` under `TIMER_COUPLING = Coupled`: "the operation is not part of the
  interface: a model refuses it" (40_cycle.md R163). Safe: the spec says so. -/
  | timerTickUnderCoupled
  deriving DecidableEq, Repr

/-- `Exec` (R43). -/
inductive ExecState where
  | running
  | waitingForKey
  | faulted
  deriving DecidableEq, Repr

/-- The error kinds (60_exceptions.md R420). -/
inductive ErrorKind where
  | unknownOpcode
  | memoryOutOfBounds
  | stackOverflow
  | stackUnderflow
  | romTooLarge
  | invalidPC
  | keyOutOfRange
  deriving DecidableEq, Repr

/-- The error record `{kind, opcode, pc, addr}` (R427). -/
structure ErrorRecord where
  kind   : ErrorKind
  opcode : Option Word
  pc     : Word
  addr   : Option Nat
  deriving DecidableEq, Repr

/-- The sound events (46_timers.md R396, R397). -/
inductive AudioEvent where
  | audioOn
  | audioOff
  deriving DecidableEq, Repr

/-- The status part of a result (40_cycle.md R151). `err` carries the value of the element `Fault`. -/
inductive Status where
  | ok
  | warn (record : ErrorRecord)
  | err (fault : Option ErrorRecord)
  deriving DecidableEq, Repr

/-- The host operations with their inputs (40_cycle.md R160). -/
inductive HostOp where
  | reset
  | loadProgram (rom : List Byte)
  | cycle (keys : Vector Bool 16) (rand : Byte)
  | timerTick
  | ackDraw
  | view
  deriving DecidableEq, Repr

/-- The memory image as the cells that differ from what an unlisted address reads as, by rising address. -/
abbrev Memory := List Host.Cell

/-- The framebuffer: 32 rows of 64 cells, `true` meaning lit (R40: row-major). -/
abbrev Frame := Vector (Vector Bool 64) 32

/-- What the host's read-only view returns (40_cycle.md R165). -/
structure View where
  cells    : List Bool
  drawFlag : Bool
  exec     : ExecState
  fault    : Option ErrorRecord
  deriving DecidableEq, Repr

/-- The whole state. From `mem` to `fault` it is the tuple of R30; `params` are the parameters of 00_scope.md R10,
which no step changes (log entry 1); the last five fields are the model's own: they carry a host operation's inputs
and outputs through `step` (log entries 3, 4, 5, 6). -/
structure State where
  /-- `Mem[0..4095]` (R80). -/
  mem      : Memory
  /-- `V[0..15]` (R32). -/
  v        : Vector Byte 16
  /-- `I` (R35). -/
  i        : Word
  /-- `PC` (R36). -/
  pc       : Word
  /-- `SP`, 0..16 (R38). -/
  sp       : Fin 17
  /-- `Stack[0..15]` (R38). -/
  stack    : Vector Word 16
  /-- `DT`, the delay timer (R39). -/
  dt       : Byte
  /-- `ST`, the sound timer (R39). -/
  st       : Byte
  /-- `FB` (R40). -/
  fb       : Frame
  /-- `DrawFlag` (R41). -/
  drawFlag : Bool
  /-- `KeyCur[0..15]` (R42). -/
  keyCur   : Vector Bool 16
  /-- `KeyPrev[0..15]` (R42). -/
  keyPrev  : Vector Bool 16
  /-- `Exec` (R43). -/
  exec     : ExecState
  /-- `WaitReg` (R44). -/
  waitReg  : Reg
  /-- `Fault` (R45). -/
  fault    : Option ErrorRecord
  /-- The parameters of 00_scope.md R10. -/
  params   : Params
  /-- MODEL'S OWN: the operations the host has decided to invoke, next first. -/
  hostOps  : List HostOp
  /-- MODEL'S OWN: the `rand` input of the current `Running` cycle (40_cycle.md R150). -/
  rand     : Byte
  /-- MODEL'S OWN: the status of the latest result (40_cycle.md R151). -/
  status   : Status
  /-- MODEL'S OWN: the events of the latest result (46_timers.md R398). -/
  events   : List AudioEvent
  /-- MODEL'S OWN: how many draws have been taken, the argument of the free values. -/
  draws    : Nat
  deriving DecidableEq, Repr

/-- The state after reset (R47), with the default parameters and no host operation pending. The memory lists no
cell: an unlisted address reads as its reset contents, the font and zeros. -/
def State.reset : State :=
  { mem := [], v := Vector.replicate 16 0, i := 0, pc := 0x200, sp := 0, stack := Vector.replicate 16 0,
    dt := 0, st := 0, fb := Vector.replicate 32 (Vector.replicate 64 false), drawFlag := true,
    keyCur := Vector.replicate 16 false, keyPrev := Vector.replicate 16 false,
    exec := .running, waitReg := 0, fault := none,
    params := defaultParams, hostOps := [], rand := 0, status := .ok, events := [], draws := 0 }

end Sys2Proof.Machine
end

