-- ==== Sys2Proof/Machine/Ops.lean ====
section
/-! DEFINITION. The shared operations: memory (20_memory.md), the call stack (10_state.md R38), raising an error and
the reset that leaves it (60_exceptions.md R425 to R427, 70_reset_and_hazards.md R460), skipping
(41_control_flow.md R198). -/

namespace Sys2Proof.Machine

/-! ## Memory -/

/-- What an address reads as that no write has changed since reset: `FONT` at `0x000`..`0x04F`, `0x00` elsewhere
(10_state.md R47). -/
def fillByte (font : Font) (a : Nat) : Byte :=
  if h : a < 80 then font[a] else 0

/-- The listed byte at an address. -/
def Memory.lookup : Memory → Nat → Option Byte
  | [], _ => none
  | (b, w) :: m, a => if b = a then some w else Memory.lookup m a

/-- One byte of memory (R84). -/
def Memory.read (font : Font) (m : Memory) (a : Nat) : Byte :=
  (Memory.lookup m a).getD (fillByte font a)

/-- Put byte `v` at address `a` where an unlisted `a` reads as `d`, keeping the canonical form. -/
def Memory.put (d : Byte) : Memory → Nat → Byte → Memory
  | [], a, v => if v = d then [] else [(a, v)]
  | (b, w) :: m, a, v =>
    if a < b then (if v = d then (b, w) :: m else (a, v) :: (b, w) :: m)
    else if a = b then (if v = d then m else (a, v) :: m)
    else (b, w) :: Memory.put d m a v

/-- Write one byte (R85). -/
def Memory.write (font : Font) (m : Memory) (a : Nat) (v : Byte) : Memory :=
  Memory.put (fillByte font a) m a v

/-- Write consecutive bytes from `a` up (R85). -/
def Memory.writeAll (font : Font) : Memory → Nat → List Byte → Memory
  | m, _, [] => m
  | m, a, v :: vs => Memory.writeAll font (Memory.write font m a v) (a + 1) vs

/-- Canonical from address `lo` up: addresses rising strictly, below `0x1000`, and no cell that equals what an
unlisted address reads as. -/
def Memory.wfFrom (font : Font) : Nat → Memory → Bool
  | _, [] => true
  | lo, (a, v) :: m =>
    decide (lo ≤ a) && decide (a < Config.memSize) && decide (v ≠ fillByte font a) && Memory.wfFrom font (a + 1) m

/-- The canonical form of memory. -/
def Memory.wf (font : Font) (m : Memory) : Bool := Memory.wfFrom font 0 m

/-- `Mem[a]`. -/
def State.readByte (s : State) (a : Nat) : Byte := Memory.read s.params.font s.mem a

/-- `MemRead(a, n)`: the `n` bytes at `a`..`a+n-1` (R84). -/
def State.readBytes (s : State) : Nat → Nat → List Byte
  | _, 0 => []
  | a, n + 1 => s.readByte a :: s.readBytes (a + 1) n

/-- `MemWrite(a, n, vs)` (R85). -/
def State.writeBytes (s : State) (a : Nat) (vs : List Byte) : State :=
  { s with mem := Memory.writeAll s.params.font s.mem a vs }

/-- `InBounds(a, n)`, in unbounded integers; an access of no bytes is always in bounds (R83). -/
def inBounds (a n : Nat) : Bool := decide (n = 0) || decide (a + n - 1 ≤ 0xFFF)

/-- The address recorded by `MemoryOutOfBounds`: the lowest one of the access outside `0x000`..`0xFFF` (R83, R422). -/
def outOfBoundsAddr (a : Nat) : Nat := max a 0x1000

/-! ## Errors: entry, and the only way out -/

/-- `enter_fault(record)` sets `Fault` and `Exec` and changes nothing else (R426). -/
def State.enterFault (s : State) (r : ErrorRecord) : State :=
  { s with fault := some r, exec := .faulted }

/-- The fetch address of the instruction being executed: every handler sees `PC` = fetch address + 2
(40_cycle.md R157). DEDUCED, log entry 8. -/
def State.fetchAddr (s : State) : Word := s.pc - 2

/-- `raise E(addr)` by the handler of instruction `i`: none of its effects is committed, and the error is entered
with the opcode being executed and its fetch address (R425, R427; 40_cycle.md R153). The opcode is the encoding of the
decoded instruction (DEDUCED, log entry 8). -/
def raise (kind : ErrorKind) (i : Instr) (addr : Option Nat) (s : State) : Host.Outcome State Fault Refusal :=
  .next (s.enterFault { kind := kind, opcode := some (encode i), pc := s.fetchAddr, addr := addr })

/-- The host operation `reset`, "the only way out of `Faulted`" (40_cycle.md R161, R460): every element of R47. The
parameters stay; so do the pending operations and the draw counter, which are not the core's (log entry 9). -/
def State.hostReset (s : State) : State :=
  { State.reset with params := s.params, hostOps := s.hostOps, draws := s.draws }

/-! ## Call stack (10_state.md R38) -/

/-- Push: store at `Stack[SP]`, then `SP <- SP + 1`; nothing when `SP = 16`. -/
def State.push (s : State) (w : Word) : Option State :=
  if h : s.sp.val < 16 then
    some { s with stack := s.stack.set s.sp.val w, sp := ⟨s.sp.val + 1, Nat.succ_lt_succ h⟩ }
  else none

/-- Pop: `SP <- SP - 1`, then load `Stack[SP]`; the slot keeps its value; nothing when `SP = 0`. -/
def State.pop (s : State) : Option (Word × State) :=
  if h : 0 < s.sp.val then
    have hj : s.sp.val - 1 < 16 := by have := s.sp.isLt; omega
    some (s.stack[s.sp.val - 1], { s with sp := ⟨s.sp.val - 1, by omega⟩ })
  else none

/-! ## Program counter -/

/-- `PC <- target`. -/
def State.jump (s : State) (target : Word) : State := { s with pc := target }

/-- "Skip next instruction (`PC += 2`)" when the condition holds (R198). -/
def State.skipIf (s : State) (c : Bool) : State := { s with pc := if c then s.pc + 2 else s.pc }

end Sys2Proof.Machine
end

