-- ==== Sys2Proof/Machine/Operands.lean ====
section
/-! DEFINITION. Operand forms (30_encoding.md R111, R113; 10_state.md R32, R35): registers, immediates, the bytes
that `I` addresses, and the register blocks of `Fx55` and `Fx65`. -/

namespace Sys2Proof.Machine

/-- `zext_16(nnn)` of an address field (R113). -/
def zextAddr (nnn : Addr12) : Word := nnn.setWidth 16

/-- `zext_16(v)` of an 8-bit value (00_scope.md R13). -/
def zextByte (b : Byte) : Word := b.setWidth 16

/-- Read `V[x]` (R32). -/
def State.reg (s : State) (x : Reg) : Byte := s.v[x]

/-- `V[x] <- b` (R32: no register is hardwired). -/
def State.setReg (s : State) (x : Reg) (b : Byte) : State := { s with v := s.v.set x b }

/-- `V[0], V[1], ..., V[x]` (43_index_memory.md R284). -/
def State.regsThrough (s : State) (x : Reg) : List Byte := s.v.toList.take (x.val + 1)

/-- Load bytes into consecutive registers from number `k` up. -/
def loadRegsFrom : Nat → List Byte → Vector Byte 16 → Vector Byte 16
  | _, [], v => v
  | k, b :: bs, v => loadRegsFrom (k + 1) bs (v.setIfInBounds k b)

/-- `for k in 0 .. x: V[k] <- bytes[k]` (43_index_memory.md R286). -/
def State.loadRegs (s : State) (bytes : List Byte) : State := { s with v := loadRegsFrom 0 bytes s.v }

/-- The `n` bytes at `I`..`I+n-1`, or nothing when they leave the memory (20_memory.md R83, R88). -/
def State.bytesAtI (s : State) (n : Nat) : Option (List Byte) :=
  if inBounds s.i.toNat n then some (s.readBytes s.i.toNat n) else none

/-- Store bytes at `I` and up, or nothing when they leave the memory (20_memory.md R83, R88). -/
def State.storeAtI (s : State) (vs : List Byte) : Option State :=
  if inBounds s.i.toNat vs.length then some (s.writeBytes s.i.toNat vs) else none

/-- The operand of `Ex9E` and `ExA1`: the key numbered by `V[x]`, or nothing when `V[x] > 0xF`
(45_keypad.md R361, R363). -/
def State.keyNumber (s : State) (x : Reg) : Option Key :=
  if h : (s.reg x).toNat < 16 then some ⟨(s.reg x).toNat, h⟩ else none

/-- `isDown(k)` is `KeyCur[k]` (45_keypad.md R361). -/
def State.isDown (s : State) (k : Key) : Bool := s.keyCur[k]

end Sys2Proof.Machine
end

