-- ==== Sys2Proof/Machine/Flags.lean ====
section
/-! DEFINITION. The results and flags of the ALU instructions (42_alu.md R238 to R242, R244), and the two writes that
end them (R231). Sums are exact and then narrowed. -/

namespace Sys2Proof.Machine

/-- A flag as the byte `VF` holds, 0 or 1 (R231). -/
def flagByte (c : Bool) : Byte := if c then 1 else 0

/-- `(a + b) mod 256` (R238). -/
def addResult (a b : Byte) : Byte := BitVec.ofNat 8 (a.toNat + b.toNat)

/-- Carry: 1 iff the exact sum exceeds 255 (R238). -/
def carryFlag (a b : Byte) : Bool := decide (a.toNat + b.toNat > 255)

/-- `(a - b) mod 256` (R239, R241). -/
def subResult (a b : Byte) : Byte := BitVec.ofInt 8 ((a.toNat : Int) - (b.toNat : Int))

/-- No borrow: 1 iff minuend `a` ≥ subtrahend `b` (R239, R241). -/
def noBorrowFlag (a b : Byte) : Bool := decide (a.toNat ≥ b.toNat)

/-- `a >> 1` (R240). -/
def shrResult (a : Byte) : Byte := a >>> 1

/-- The bit `8xy6` shifts out, bit 0 (R240). -/
def shrFlag (a : Byte) : Bool := a.getLsbD 0

/-- `(a << 1) mod 256` (R242). -/
def shlResult (a : Byte) : Byte := a <<< 1

/-- The bit `8xyE` shifts out, bit 7 (R242). -/
def shlFlag (a : Byte) : Bool := a.getLsbD 7

/-- `WriteRF(x, r, f)`: result to `Vx`, flag to `VF`; when both are `VF`, `FLAG_WRITE_ORDER` says which value stays,
and `AnyValue` leaves a free value (R231). -/
def State.writeRF (s : State) (x : Reg) (r : Byte) (f : Bool) : State :=
  if x = regF then
    match s.params.flagOrder with
    | .flagLast => s.setReg regF (flagByte f)
    | .resultLast => s.setReg regF r
    | .anyValue => { s.setReg regF (Config.freeFlag s.draws) with draws := s.draws + 1 }
  else (s.setReg x r).setReg regF (flagByte f)

end Sys2Proof.Machine
end

