-- ==== Sys2Proof/Machine/Alu.lean ====
section
/-! DEFINITION. Register arithmetic and logic (42_alu.md R232 to R243). Operands are latched before the first write
(R230): every result below is a function of the state before the instruction. -/

namespace Sys2Proof.Machine

/-- `6xnn` LD Vx, nn (R232). -/
def execLdImm (x : Reg) (nn : Byte) (s : State) : Host.Outcome State Fault Refusal :=
  .next (s.setReg x nn)

/-- `7xnn` ADD Vx, nn: wraps, no flag (R233). -/
def execAddImm (x : Reg) (nn : Byte) (s : State) : Host.Outcome State Fault Refusal :=
  .next (s.setReg x (addResult (s.reg x) nn))

/-- `8xy0` LD Vx, Vy (R234). -/
def execLdReg (x y : Reg) (s : State) : Host.Outcome State Fault Refusal :=
  .next (s.setReg x (s.reg y))

/-- `8xy1` OR Vx, Vy (R235). -/
def execOrReg (x y : Reg) (s : State) : Host.Outcome State Fault Refusal :=
  .next (s.setReg x (s.reg x ||| s.reg y))

/-- `8xy2` AND Vx, Vy (R236). -/
def execAndReg (x y : Reg) (s : State) : Host.Outcome State Fault Refusal :=
  .next (s.setReg x (s.reg x &&& s.reg y))

/-- `8xy3` XOR Vx, Vy (R237). -/
def execXorReg (x y : Reg) (s : State) : Host.Outcome State Fault Refusal :=
  .next (s.setReg x (s.reg x ^^^ s.reg y))

/-- `8xy4` ADD Vx, Vy (R238). -/
def execAddReg (x y : Reg) (s : State) : Host.Outcome State Fault Refusal :=
  .next (s.writeRF x (addResult (s.reg x) (s.reg y)) (carryFlag (s.reg x) (s.reg y)))

/-- `8xy5` SUB Vx, Vy (R239). -/
def execSub (x y : Reg) (s : State) : Host.Outcome State Fault Refusal :=
  .next (s.writeRF x (subResult (s.reg x) (s.reg y)) (noBorrowFlag (s.reg x) (s.reg y)))

/-- `8xy6` SHR Vx, Vy: on `Vx` itself, `Vy` ignored (R240). -/
def execShr (x _y : Reg) (s : State) : Host.Outcome State Fault Refusal :=
  .next (s.writeRF x (shrResult (s.reg x)) (shrFlag (s.reg x)))

/-- `8xy7` SUBN Vx, Vy: `Vy - Vx` (R241). -/
def execSubn (x y : Reg) (s : State) : Host.Outcome State Fault Refusal :=
  .next (s.writeRF x (subResult (s.reg y) (s.reg x)) (noBorrowFlag (s.reg y) (s.reg x)))

/-- `8xyE` SHL Vx, Vy: on `Vx` itself, `Vy` ignored (R242). -/
def execShl (x _y : Reg) (s : State) : Host.Outcome State Fault Refusal :=
  .next (s.writeRF x (shlResult (s.reg x)) (shlFlag (s.reg x)))

/-- `Cxnn` RND Vx, nn: the cycle's random byte masked (R243). -/
def execRnd (x : Reg) (nn : Byte) (s : State) : Host.Outcome State Fault Refusal :=
  .next (s.setReg x (s.rand &&& nn))

end Sys2Proof.Machine
end

