-- ==== Sys2Proof/Machine/Control.lean ====
section
/-! DEFINITION. Control flow instructions (41_control_flow.md R190 to R198). Each runs after `PC <- a + 2`. -/

namespace Sys2Proof.Machine

/-- `00EE` RET (R190). -/
def execRet (s : State) : Host.Outcome State Fault Refusal :=
  match s.pop with
  | none => raise .stackUnderflow .ret none s
  | some (w, s') => .next (s'.jump w)

/-- `1nnn` JP nnn (R191). -/
def execJp (nnn : Addr12) (s : State) : Host.Outcome State Fault Refusal :=
  .next (s.jump (zextAddr nnn))

/-- `2nnn` CALL nnn (R192): the pushed value is the already advanced `PC`. -/
def execCall (nnn : Addr12) (s : State) : Host.Outcome State Fault Refusal :=
  match s.push s.pc with
  | none => raise .stackOverflow (.call nnn) none s
  | some s' => .next (s'.jump (zextAddr nnn))

/-- `3xnn` SE Vx, nn (R193). -/
def execSeImm (x : Reg) (nn : Byte) (s : State) : Host.Outcome State Fault Refusal :=
  .next (s.skipIf (s.reg x == nn))

/-- `4xnn` SNE Vx, nn (R194). -/
def execSneImm (x : Reg) (nn : Byte) (s : State) : Host.Outcome State Fault Refusal :=
  .next (s.skipIf (s.reg x != nn))

/-- `5xy0` SE Vx, Vy (R195). -/
def execSeReg (x y : Reg) (s : State) : Host.Outcome State Fault Refusal :=
  .next (s.skipIf (s.reg x == s.reg y))

/-- `9xy0` SNE Vx, Vy (R196). -/
def execSneReg (x y : Reg) (s : State) : Host.Outcome State Fault Refusal :=
  .next (s.skipIf (s.reg x != s.reg y))

/-- `Bnnn` JP V0, nnn: the 16-bit sum, never masked (R197). -/
def execJpV0 (nnn : Addr12) (s : State) : Host.Outcome State Fault Refusal :=
  .next (s.jump (zextByte (s.reg 0) + zextAddr nnn))

end Sys2Proof.Machine
end

