-- ==== Sys2Proof/Machine/Display.lean ====
section
/-! DEFINITION. The framebuffer and the display instructions (44_display.md R320 to R326). -/

namespace Sys2Proof.Machine

/-- `FB[X mod 64][Y mod 32]`: every cell access wraps (R320). -/
def Frame.cell (fb : Frame) (x y : Nat) : Bool := fb[y % 32][x % 64]

/-- Invert the cell a coordinate pair names (R320, R323). -/
def Frame.toggle (fb : Frame) (x y : Nat) : Frame :=
  fb.set (y % 32) (fb[y % 32].set (x % 64) (!fb[y % 32][x % 64]))

/-- A grid with every cell `false`. -/
def Frame.blank : Frame := Vector.replicate 32 (Vector.replicate 64 false)

/-- The clear primitive (R321). -/
def State.clearDisplay (s : State) : State := { s with fb := Frame.blank, drawFlag := true }

/-- One column of a sprite row: column `col` is bit `7 - col` of the row's byte; a set bit toggles its cell and
collides when the cell was lit (R323, R325). -/
def drawBit (ox cy : Nat) (row : Byte) (acc : Frame × Bool) (col : Nat) : Frame × Bool :=
  if row.getLsbD (7 - col) then
    (Frame.toggle acc.1 (ox + col) cy, acc.2 || Frame.cell acc.1 (ox + col) cy)
  else acc

/-- The eight columns of one sprite row, left to right (R323). -/
def drawRow (ox cy : Nat) (row : Byte) (acc : Frame × Bool) : Frame × Bool :=
  [0, 1, 2, 3, 4, 5, 6, 7].foldl (drawBit ox cy row) acc

/-- The rows of a sprite from `cy` down (R323). -/
def drawRows (ox : Nat) : Nat → List Byte → Frame × Bool → Frame × Bool
  | _, [], acc => acc
  | cy, row :: rows, acc => drawRows ox (cy + 1) rows (drawRow ox cy row acc)

/-- `draw(ox, oy, sprite)`: the new grid and the collision bit (R323). -/
def drawSprite (ox oy : Nat) (sprite : List Byte) (fb : Frame) : Frame × Bool :=
  drawRows ox oy sprite (fb, false)

/-- The draw primitive on the state, with the collision flag in `VF` (R323 to R325). The origin is an argument: it is
read before `VF` is written. -/
def State.draw (s : State) (ox oy : Nat) (sprite : List Byte) : State :=
  { s.setReg regF (flagByte (drawSprite ox oy sprite s.fb).2) with
    fb := (drawSprite ox oy sprite s.fb).1, drawFlag := true }

/-- `00E0` CLS (R322). -/
def execCls (s : State) : Host.Outcome State Fault Refusal := .next s.clearDisplay

/-- `Dxyn` DRW Vx, Vy, n (R324), `n = 0` included (R326). -/
def execDrw (x y : Reg) (n : Nibble) (s : State) : Host.Outcome State Fault Refusal :=
  match s.bytesAtI n.toNat with
  | none => raise .memoryOutOfBounds (.drw x y n) (some (outOfBoundsAddr s.i.toNat)) s
  | some sprite => .next (s.draw (s.reg x).toNat (s.reg y).toNat sprite)

end Sys2Proof.Machine
end

