-- ==== Sys2Proof/Machine/Index.lean ====
section
/-! DEFINITION. Index register and memory transfers (43_index_memory.md R280 to R286). -/

namespace Sys2Proof.Machine

/-- `I <- w` (10_state.md R35). -/
def State.setI (s : State) (w : Word) : State := { s with i := w }

/-- The decimal digits of a byte: hundreds, tens, units (R283). -/
def bcdDigits (v : Byte) : List Byte :=
  [BitVec.ofNat 8 (v.toNat / 100), BitVec.ofNat 8 (v.toNat / 10 % 10), BitVec.ofNat 8 (v.toNat % 10)]

/-- `Annn` LD I, nnn (R280). -/
def execLdI (nnn : Addr12) (s : State) : Host.Outcome State Fault Refusal :=
  .next (s.setI (zextAddr nnn))

/-- `Fx1E` ADD I, Vx: modulo 65536, no flag (R281). -/
def execAddIVx (x : Reg) (s : State) : Host.Outcome State Fault Refusal :=
  .next (s.setI (s.i + zextByte (s.reg x)))

/-- `Fx29` LD F, Vx: the whole 8-bit `Vx` times 5 (R282). -/
def execLdFVx (x : Reg) (s : State) : Host.Outcome State Fault Refusal :=
  .next (s.setI (zextByte (s.reg x) * 5))

/-- `Fx33` LD B, Vx (R283). -/
def execLdBVx (x : Reg) (s : State) : Host.Outcome State Fault Refusal :=
  match s.storeAtI (bcdDigits (s.reg x)) with
  | none => raise .memoryOutOfBounds (.ldBVx x) (some (outOfBoundsAddr s.i.toNat)) s
  | some s' => .next s'

/-- `Fx55` LD [I], Vx: `I` is unchanged (R284, R285). -/
def execLdMemVx (x : Reg) (s : State) : Host.Outcome State Fault Refusal :=
  match s.storeAtI (s.regsThrough x) with
  | none => raise .memoryOutOfBounds (.ldMemVx x) (some (outOfBoundsAddr s.i.toNat)) s
  | some s' => .next s'

/-- `Fx65` LD Vx, [I]: `I` is unchanged (R284, R286). -/
def execLdVxMem (x : Reg) (s : State) : Host.Outcome State Fault Refusal :=
  match s.bytesAtI (x.val + 1) with
  | none => raise .memoryOutOfBounds (.ldVxMem x) (some (outOfBoundsAddr s.i.toNat)) s
  | some bytes => .next (s.loadRegs bytes)

end Sys2Proof.Machine
end

