-- ==== Sys2Proof/Machine/Keypad.lean ====
section
/-! DEFINITION. The input latch, the key instructions and the key wait (45_keypad.md R360 to R367). -/

namespace Sys2Proof.Machine

/-- `sample(keys)`: the previous sample is kept, then overwritten by the host vector (R360). -/
def State.sample (s : State) (keys : Vector Bool 16) : State :=
  { s with keyPrev := s.keyCur, keyCur := keys }

/-- The scan order of the key wait, `0x0`..`0xF` (R366). -/
def keyOrder : List Key := [0, 1, 2, 3, 4, 5, 6, 7, 8, 9, 10, 11, 12, 13, 14, 15]

/-- `transitionedDown(k)` (R362). -/
def State.transitionedDown (s : State) (k : Key) : Bool := s.keyCur[k] && !s.keyPrev[k]

/-- The lowest key with a down edge (R366). -/
def State.firstKeyDown (s : State) : Option Key := keyOrder.find? s.transitionedDown

/-- The resolution of the wait: the key index, zero-extended, into `V[WaitReg]` (R366, R367). -/
def State.resolveWait (s : State) (k : Key) : State :=
  { s.setReg s.waitReg (BitVec.ofNat 8 k.val) with exec := .running }

/-- A cycle in `WaitingForKey` (R366), with result `{Ok, []}` (40_cycle.md R166). -/
def State.waitCycle (s : State) (keys : Vector Bool 16) : State :=
  let s' : State := { s.sample keys with status := .ok, events := [] }
  match s'.firstKeyDown with
  | none => s'
  | some k => s'.resolveWait k

/-- `Ex9E` SKP Vx (R363). -/
def execSkp (x : Reg) (s : State) : Host.Outcome State Fault Refusal :=
  match s.keyNumber x with
  | none => raise .keyOutOfRange (.skp x) none s
  | some k => .next (s.skipIf (s.isDown k))

/-- `ExA1` SKNP Vx (R364). -/
def execSknp (x : Reg) (s : State) : Host.Outcome State Fault Refusal :=
  match s.keyNumber x with
  | none => raise .keyOutOfRange (.sknp x) none s
  | some k => .next (s.skipIf (!s.isDown k))

/-- `Fx0A` LD Vx, K: enter the wait; `Vx` is written by a later cycle (R365). -/
def execLdVxK (x : Reg) (s : State) : Host.Outcome State Fault Refusal :=
  .next { s with waitReg := x, exec := .waitingForKey }

end Sys2Proof.Machine
end

