-- ==== Sys2Proof/Machine/Timers.lean ====
section
/-! DEFINITION. The timers and the sound events (46_timers.md R390 to R398). -/

namespace Sys2Proof.Machine

/-- Decrement by 1 when nonzero (R390). -/
def countDown (t : Byte) : Byte := if t = 0 then 0 else t - 1

/-- The timer tick: both timers, and `AudioOff` when it takes `ST` from 1 to 0 (R390, R397). -/
def State.tick (s : State) : State :=
  { s with dt := countDown s.dt, st := countDown s.st,
           events := if s.st = 1 then s.events ++ [.audioOff] else s.events }

/-- The event of an `Fx18` that writes `v` over `old` (R395 to R397). -/
def soundEvent (old v : Byte) : List AudioEvent :=
  if v ≠ 0 then [.audioOn] else if old ≠ 0 then [.audioOff] else []

/-- `Fx07` LD Vx, DT (R393). -/
def execLdVxDt (x : Reg) (s : State) : Host.Outcome State Fault Refusal :=
  .next (s.setReg x s.dt)

/-- `Fx15` LD DT, Vx (R394). -/
def execLdDtVx (x : Reg) (s : State) : Host.Outcome State Fault Refusal :=
  .next { s with dt := s.reg x }

/-- `Fx18` LD ST, Vx (R395). -/
def execLdStVx (x : Reg) (s : State) : Host.Outcome State Fault Refusal :=
  .next { s with st := s.reg x, events := s.events ++ soundEvent s.st (s.reg x) }

end Sys2Proof.Machine
end

