-- ==== Sys2Proof/Machine/Cycle.lean ====
section
/-! DEFINITION. The cycle and the other host operations (40_cycle.md R150 to R167), and where the next instruction is
fetched. -/

namespace Sys2Proof.Machine

/-! ## Fetch (R155, R156) -/

/-- `FetchOK(a)`: even, at least `0x200`, and `a + 1 <= 0xFFE` (R156). -/
def fetchOK (a : Word) : Bool :=
  decide (a.toNat % 2 = 0) && decide (0x200 ≤ a.toNat) && decide (a.toNat + 1 ≤ 0xFFE)

/-- `Mem[a] * 256 + Mem[a+1]` (R155). -/
def State.fetchWord (s : State) (a : Word) : Word :=
  wordOfBytes (s.readByte a.toNat) (s.readByte (a.toNat + 1))

/-! ## A cycle in `Running` (R153) -/

/-- The start of a `Running` cycle: no event yet, the input sampled (R154), the random byte at hand (R150). -/
def State.beginCycle (s : State) (keys : Vector Bool 16) (rand : Byte) : State :=
  { s.sample keys with rand := rand, events := [] }

/-- The advance after a successful fetch, `PC <- a + 2` (R157). -/
def State.advance (s : State) : State := { s with pc := s.pc + 2 }

/-- The end of a cycle without a fatal error: one tick under `Coupled` (R159), then the status of the result. -/
def State.endCycle (s : State) (status : Status) : State :=
  match s.params.timerCoupling with
  | .coupled => { s.tick with status := status }
  | .decoupled => { s with status := status }

/-- The end of a cycle with a fatal error: `{Err(Fault), []}`, no tick (R153, R425). -/
def State.abortCycle (s : State) : State := { s with status := .err s.fault, events := [] }

/-- What follows dispatch: a handler that raised its error ends the cycle at once (R153). -/
def State.afterExec (s : State) : State :=
  match s.exec with
  | .faulted => s.abortCycle
  | _ => s.endCycle .ok

/-- The record of an unknown opcode at the fetch address (60_exceptions.md R421). -/
def unknownRecord (op a : Word) : ErrorRecord :=
  { kind := .unknownOpcode, opcode := some op, pc := a, addr := none }

/-- The record of a failed fetch (60_exceptions.md R428). -/
def invalidPCRecord (a : Word) : ErrorRecord :=
  { kind := .invalidPC, opcode := none, pc := a, addr := some a.toNat }

/-- The rest of the cycle once the opcode `op` is fetched, in a state whose `PC` is still the fetch address. -/
def State.dispatchWord (s : State) (op : Word) : Host.Outcome State Fault Refusal :=
  match decode op with
  | .ok ins =>
    match Machine.exec ins s.advance with
    | .next s' => .next s'.afterExec
    | .fault f => .fault f
    | .refused r => .refused r
  | .error _ =>
    match s.params.unknownOpcode with
    | .strict => .next (s.advance.enterFault (unknownRecord op s.pc)).abortCycle
    | .lenient => .next (s.advance.endCycle (.warn (unknownRecord op s.pc)))

/-- A cycle in `Running` (R153). -/
def State.runCycle (s : State) (keys : Vector Bool 16) (rand : Byte) : Host.Outcome State Fault Refusal :=
  let s0 := s.beginCycle keys rand
  if fetchOK s0.pc then s0.dispatchWord (s0.fetchWord s0.pc)
  else .next (s0.enterFault (invalidPCRecord s0.pc)).abortCycle

/-- The host operation `cycle(keys, rand)` (R151, R152); in `Faulted` it changes nothing and returns the same error
(R167). -/
def State.cycle (s : State) (keys : Vector Bool 16) (rand : Byte) : Host.Outcome State Fault Refusal :=
  match s.exec with
  | .running => s.runCycle keys rand
  | .waitingForKey => .next (s.waitCycle keys)
  | .faulted => .next s.abortCycle

/-! ## The other host operations -/

/-- `load_program(rom)` (R162, 60_exceptions.md R424). -/
def State.loadProgram (s : State) (rom : List Byte) : State :=
  match s.exec with
  | .faulted => { s with status := .err s.fault, events := [] }
  | _ =>
    if rom.length + 0x200 > 0x1000 then
      (s.enterFault { kind := .romTooLarge, opcode := none, pc := s.pc, addr := none }).abortCycle
    else { s.writeBytes 0x200 rom with status := .ok, events := [] }

/-- `timer_tick` (R163): refused under `Coupled`; nothing but the empty event list in `Faulted`. -/
def State.timerTick (s : State) : Host.Outcome State Fault Refusal :=
  match s.params.timerCoupling with
  | .coupled => .refused .timerTickUnderCoupled
  | .decoupled =>
    match s.exec with
    | .faulted => .next { s with events := [] }
    | _ => .next (State.tick { s with events := [] })

/-- `ack_draw` sets `DrawFlag <- false` and changes nothing else (R164). -/
def State.ackDraw (s : State) : State := { s with drawFlag := false }

/-- The host's read-only view: the cells in row-major order, `DrawFlag`, `Exec`, `Fault` (R165). -/
def State.view (s : State) : View :=
  { cells := s.fb.toList.flatMap Vector.toList, drawFlag := s.drawFlag, exec := s.exec, fault := s.fault }

/-- One host operation (R160). The view changes no state: what it returns is `State.view`. -/
def State.runHostOp (s : State) : HostOp → Host.Outcome State Fault Refusal
  | .reset => .next s.hostReset
  | .loadProgram rom => .next (s.loadProgram rom)
  | .cycle keys rand => s.cycle keys rand
  | .timerTick => s.timerTick
  | .ackDraw => .next s.ackDraw
  | .view => .next s

/-- The next host operation: the head of the queue, or a cycle with free inputs when the queue is empty
(log entry 3). -/
def State.hostStep (s : State) : Host.Outcome State Fault Refusal :=
  match s.hostOps with
  | [] => State.cycle { s with draws := s.draws + 1 } (Config.freeKeys s.draws) (Config.freeRand s.draws)
  | op :: ops => State.runHostOp { s with hostOps := ops } op

/-! ## Placing an instruction for the next step -/

/-- Whether the next host operation is a cycle. -/
def nextIsCycle : List HostOp → Bool
  | [] => true
  | .cycle _ _ :: _ => true
  | _ => false

/-- Where an instruction is placed so that the next cycle fetches it: at `PC` when it can be fetched from. -/
def State.placeAddr (s : State) : Word := if fetchOK s.pc then s.pc else 0x200

/-- Store an opcode where the next cycle fetches, and see to it that the next step is a fetching cycle
(log entry 10). In a `Running` core with a fetchable `PC` and no other operation pending only the two bytes change. -/
def State.placeWord (s : State) (op : Word) : State :=
  { s.writeBytes s.placeAddr.toNat [highByte op, lowByte op] with
    pc := s.placeAddr, exec := .running,
    fault := (match s.exec with
      | .faulted => none
      | _ => s.fault),
    hostOps := if nextIsCycle s.hostOps then s.hostOps else [] }

end Sys2Proof.Machine
end

