-- ==== Sys2Proof/Machine/Step.lean ====
section
/-! DEFINITION. One step of the machine: one host operation (40_cycle.md R160, R168). -/

namespace Sys2Proof.Machine

/-- One step: the host operation at the head of the queue, or a cycle with free inputs. -/
def step (s : State) : Host.Outcome State Fault Refusal := s.hostStep

/-- The state with the instruction of an opcode-table word stored where the next step fetches. -/
def State.withFetchWord (s : State) (nbits w : Nat) : State :=
  s.placeWord (BitVec.ofNat 16 (w % 2 ^ nbits))

end Sys2Proof.Machine
end

