-- ==== Sys2Proof/Machine/Assembly.lean ====
section
/-! DEFINITION. The assembly language of 30_encoding.md R127 and R128: the text of an instruction, the data directives,
and the bytes a listing assembles to. It "fixes no behaviour": no step uses it. -/

namespace Sys2Proof.Machine

/-- A register is written `V0`..`VF` (R127). -/
def regText (x : Reg) : String :=
  "V" ++ (["0", "1", "2", "3", "4", "5", "6", "7", "8", "9", "A", "B", "C", "D", "E", "F"].getD x.val "")

/-- Two operands, destination first (R127). -/
def twoText (mnemonic a b : String) : String := mnemonic ++ " " ++ a ++ ", " ++ b

/-- The text of an instruction: the mnemonic column of R121 with the operands of R127, numbers in decimal. -/
def asmText : Instr → String
  | .cls => "CLS"
  | .ret => "RET"
  | .jp nnn => "JP " ++ toString nnn.toNat
  | .call nnn => "CALL " ++ toString nnn.toNat
  | .seImm x nn => twoText "SE" (regText x) (toString nn.toNat)
  | .sneImm x nn => twoText "SNE" (regText x) (toString nn.toNat)
  | .seReg x y => twoText "SE" (regText x) (regText y)
  | .ldImm x nn => twoText "LD" (regText x) (toString nn.toNat)
  | .addImm x nn => twoText "ADD" (regText x) (toString nn.toNat)
  | .ldReg x y => twoText "LD" (regText x) (regText y)
  | .orReg x y => twoText "OR" (regText x) (regText y)
  | .andReg x y => twoText "AND" (regText x) (regText y)
  | .xorReg x y => twoText "XOR" (regText x) (regText y)
  | .addReg x y => twoText "ADD" (regText x) (regText y)
  | .sub x y => twoText "SUB" (regText x) (regText y)
  | .shr x y => twoText "SHR" (regText x) (regText y)
  | .subn x y => twoText "SUBN" (regText x) (regText y)
  | .shl x y => twoText "SHL" (regText x) (regText y)
  | .sneReg x y => twoText "SNE" (regText x) (regText y)
  | .ldI nnn => twoText "LD" "I" (toString nnn.toNat)
  | .jpV0 nnn => twoText "JP" "V0" (toString nnn.toNat)
  | .rnd x nn => twoText "RND" (regText x) (toString nn.toNat)
  | .drw x y n => twoText "DRW" (regText x) (regText y) ++ ", " ++ toString n.toNat
  | .skp x => "SKP " ++ regText x
  | .sknp x => "SKNP " ++ regText x
  | .ldVxDt x => twoText "LD" (regText x) "DT"
  | .ldVxK x => twoText "LD" (regText x) "K"
  | .ldDtVx x => twoText "LD" "DT" (regText x)
  | .ldStVx x => twoText "LD" "ST" (regText x)
  | .addIVx x => twoText "ADD" "I" (regText x)
  | .ldFVx x => twoText "LD" "F" (regText x)
  | .ldBVx x => twoText "LD" "B" (regText x)
  | .ldMemVx x => twoText "LD" "[I]" (regText x)
  | .ldVxMem x => twoText "LD" (regText x) "[I]"

/-- `SHR Vx` is accepted and encodes `y = 0` (R127). -/
def shrAlone (x : Reg) : Instr := .shr x 0

/-- `SHL Vx` is accepted and encodes `y = 0` (R127). -/
def shlAlone (x : Reg) : Instr := .shl x 0

/-- A line of a listing: an instruction, or one of the data directives `DW` and `DB` (R127). -/
inductive AsmLine where
  | insn (i : Instr)
  | dw (w : Word)
  | db (b : Byte)
  deriving DecidableEq, Repr

/-- The bytes of one line: an instruction and `DW` place two, high byte first, `DB` one (R127, R128). -/
def AsmLine.bytes : AsmLine → List Byte
  | .insn i => [highByte (encode i), lowByte (encode i)]
  | .dw w => [highByte w, lowByte w]
  | .db b => [b]

/-- The bytes of a listing from its first address up. -/
def assemble : List AsmLine → List Byte
  | [] => []
  | line :: rest => line.bytes ++ assemble rest

end Sys2Proof.Machine
end

