-- ==== Sys2Proof/Safety.lean ====
section
/-! DEFINITION. What counts as a safe state of a run, and the invariant of the machine. -/

namespace Sys2Proof.Machine

/-- A state is safe while the core has not failed: nothing but the host's reset leaves `Faulted` (R426). -/
def State.Safe (s : State) : Prop := s.exec ≠ .faulted

/-- The numeric code of an error kind (60_exceptions.md R420). -/
def ErrorKind.code : ErrorKind → Nat
  | .unknownOpcode => 1
  | .memoryOutOfBounds => 2
  | .stackOverflow => 3
  | .stackUnderflow => 4
  | .romTooLarge => 5
  | .invalidPC => 6
  | .keyOutOfRange => 7

/-- How many bytes an instruction reads or writes at `I` (20_memory.md R88); none for an instruction that makes no
access. -/
def accessSize : Instr → Option Nat
  | .drw _ _ n => some n.toNat
  | .ldBVx _ => some 3
  | .ldMemVx x => some (x.val + 1)
  | .ldVxMem x => some (x.val + 1)
  | _ => none

/-- What a record of each kind holds: who raised it, at which opcode, with which address (R420, R427). -/
def ErrorRecord.Consistent (r : ErrorRecord) : Prop :=
  match r.kind with
  | .unknownOpcode => (∃ op, r.opcode = some op ∧ decode op = .error (.unknown op)) ∧ fetchOK r.pc = true ∧ r.addr = none
  | .memoryOutOfBounds =>
    (∃ ins : Instr, (accessSize ins).isSome = true ∧ r.opcode = some (encode ins)) ∧ fetchOK r.pc = true ∧
      ∃ a, r.addr = some a ∧ 0x1000 ≤ a ∧ a ≤ 0xFFFF
  | .stackOverflow => (∃ nnn, r.opcode = some (encode (.call nnn))) ∧ fetchOK r.pc = true ∧ r.addr = none
  | .stackUnderflow => r.opcode = some (encode .ret) ∧ fetchOK r.pc = true ∧ r.addr = none
  | .romTooLarge => r.opcode = none ∧ r.addr = none
  | .invalidPC => r.opcode = none ∧ fetchOK r.pc = false ∧ r.addr = some r.pc.toNat
  | .keyOutOfRange =>
    (∃ x, r.opcode = some (encode (.skp x)) ∨ r.opcode = some (encode (.sknp x))) ∧ fetchOK r.pc = true ∧ r.addr = none

/-- The invariant every step keeps. -/
structure State.Inv (s : State) : Prop where
  /-- Memory is in its canonical form. -/
  memWf : Memory.wf s.params.font s.mem = true
  /-- A record is there exactly in `Faulted` (10_state.md R45). -/
  faultIff : s.exec = .faulted ↔ s.fault.isSome = true
  /-- The record says what R420 and R427 say of its kind. -/
  faultOk : ∀ r, s.fault = some r → r.Consistent
  /-- "The largest value any rule can place in `PC` is `0x10FE`" (10_state.md R37). -/
  pcBound : s.pc.toNat ≤ 0x10FE
  /-- Every stack slot holds a value some `2nnn` pushed, or its reset value (R157, R192). -/
  stackBound : ∀ j : Fin 16, s.stack[j].toNat ≤ 0xFFE

/-! ## Terms the statements use -/

/-- The next host operation is `cycle(keys, rand)`, and `s0` is `s` without that operation: the head of the queue, or
a cycle with free inputs when the queue is empty (40_cycle.md R150, R160). -/
def State.TakesCycle (s : State) (keys : Vector Bool 16) (rand : Byte) (s0 : State) : Prop :=
  (∃ ops, s.hostOps = .cycle keys rand :: ops ∧ s0 = { s with hostOps := ops }) ∨
  (s.hostOps = [] ∧ keys = Config.freeKeys s.draws ∧ rand = Config.freeRand s.draws ∧
    s0 = { s with draws := s.draws + 1 })

/-- `t` is `s` after `WriteRF(x, r, f)` (42_alu.md R231): only registers change (and the model's draw counter, under
`AnyValue` with `x = F`), only `Vx` and `VF` among them; `Vx` holds `r` and `VF` holds `f`, and when `x = F` the
parameter `FLAG_WRITE_ORDER` says which of the two `VF` holds. Under `AnyValue` nothing is said of `VF`. -/
def FlagWrite (s t : State) (x : Reg) (r f : Nat) : Prop :=
  t = { s with v := t.v, draws := t.draws } ∧
  (∀ y : Reg, y ≠ x → y ≠ 15 → t.v[y] = s.v[y]) ∧
  (x ≠ 15 → t.v[x].toNat = r ∧ t.v[(15 : Reg)].toNat = f ∧ t.draws = s.draws) ∧
  (x = 15 → s.params.flagOrder = .flagLast → t.v[(15 : Reg)].toNat = f ∧ t.draws = s.draws) ∧
  (x = 15 → s.params.flagOrder = .resultLast → t.v[(15 : Reg)].toNat = r ∧ t.draws = s.draws)

/-- A set bit of the `n`-row sprite at `I`, drawn with origin `(ox, oy)`, lands on cell `(cx, cy)`
(44_display.md R320, R323). -/
def State.SpriteCovers (s : State) (ox oy n cx cy : Nat) : Prop :=
  ∃ row col, row < n ∧ col < 8 ∧ (s.readByte (s.i.toNat + row)).getLsbD (7 - col) = true ∧
    (ox + col) % 64 = cx ∧ (oy + row) % 32 = cy

/-- Key `k` goes down between two samples (45_keypad.md R362). -/
def KeyEdge (before now : Vector Bool 16) (k : Key) : Prop := now[k] = true ∧ before[k] = false

end Sys2Proof.Machine
end

