-- ==== Sys2Proof/Certificates/Slice0/Obligations.lean ====
section
/-! DEFINITION. The statements for the provers. Each docstring names the rule of spec/ it formalises. Nothing is
proved here. -/

open Sys2Proof Sys2Proof.Machine

/-! ## Encoding -/

/-- Words written out from the patterns of 30_encoding.md R112, one or more a format, and unknown words of R122. -/
def Obligations.DecodesWrittenOutWords : Prop :=
  decode 0b0000000011100000#16 = .ok .cls ∧
  decode 0b0010001100000000#16 = .ok (.call 0x300#12) ∧
  decode 0b0110101000101011#16 = .ok (.ldImm 0xA 0x2B#8) ∧
  decode 0b1000000100101110#16 = .ok (.shl 1 2) ∧
  decode 0b1101001101001111#16 = .ok (.drw 3 4 0xF#4) ∧
  decode 0b1110010110011110#16 = .ok (.skp 5) ∧
  decode 0b1111111101100101#16 = .ok (.ldVxMem 15) ∧
  decode 0b0000000000000000#16 = .error (.unknown 0x0000#16) ∧
  decode 0b0101000100100001#16 = .error (.unknown 0x5121#16) ∧
  decode 0b1000000000001000#16 = .error (.unknown 0x8008#16) ∧
  decode 0b1111000111111111#16 = .error (.unknown 0xF1FF#16)

/-- No bit of an encoding is dropped: decoding the opcode of an instruction gives the instruction back, with every
operand at every value (30_encoding.md sections 2 and 4). -/
def Obligations.DecodeOfEncode : Prop :=
  ∀ i : Instr, decode (encode i) = .ok i

/-- Each instruction word has one meaning: encoding what a word decodes to gives the word (30_encoding.md section 4).
With the record of an error holding the encoding of the decoded instruction, this says that it holds the opcode that
was fetched (log entry 8). -/
def Obligations.EncodeOfDecode : Prop :=
  ∀ (op : Word) (i : Instr), decode op = .ok i → encode i = op

/-- 30_encoding.md R115: the decoder by family accepts exactly the words that match every fixed bit of a row of the
opcode map, and it reads the instruction of that row. -/
def Obligations.DecodeMatchesOpcodeMap : Prop :=
  ∀ op : Word,
    ((∃ i, decode op = .ok i) ↔ ∃ row ∈ opcodeTable, op &&& row.mask = row.pattern) ∧
    (∀ i, decode op = .ok i → op &&& (Instr.row i).mask = (Instr.row i).pattern) ∧
    ((¬∃ row ∈ opcodeTable, op &&& row.mask = row.pattern) → decode op = .error (.unknown op))

/-- 30_encoding.md section 4: the map has 34 rows and no two of them select the same word. -/
def Obligations.OpcodeMapRowsAreDisjoint : Prop :=
  opcodeTable.length = 34 ∧
  ∀ r₁ ∈ opcodeTable, ∀ r₂ ∈ opcodeTable, ∀ op : Word,
    op &&& r₁.mask = r₁.pattern → op &&& r₂.mask = r₂.pattern → r₁ = r₂

/-- 30_encoding.md section 5: the unknown words, family by family, in the numbers of the word. -/
def Obligations.UnknownWordsByFamily : Prop :=
  ∀ op : Word, decode op = .error (.unknown op) ↔
    (op.toNat < 0x1000 ∧ op.toNat ≠ 0x00E0 ∧ op.toNat ≠ 0x00EE) ∨
    (op.toNat / 4096 = 5 ∧ op.toNat % 16 ≠ 0) ∨
    (op.toNat / 4096 = 8 ∧ op.toNat % 16 ∈ [8, 9, 10, 11, 12, 13, 15]) ∨
    (op.toNat / 4096 = 9 ∧ op.toNat % 16 ≠ 0) ∨
    (op.toNat / 4096 = 14 ∧ op.toNat % 256 ∉ [0x9E, 0xA1]) ∨
    (op.toNat / 4096 = 15 ∧ op.toNat % 256 ∉ [0x07, 0x0A, 0x15, 0x18, 0x1E, 0x29, 0x33, 0x55, 0x65])

/-- 30_encoding.md section 6: every instruction of a listing assembles to exactly one opcode, which is read back from
the bytes in memory order, whatever follows; so the two bytes of an instruction line and of a `DW` line with its opcode
are the same. -/
def Obligations.AssembledInstructionIsReadBack : Prop :=
  ∀ (i : Instr) (rest : List AsmLine),
    decodeBytes (assemble (.insn i :: rest)) = .ok (i, assemble rest) ∧
    assemble (.insn i :: rest) = assemble (.dw (encode i) :: rest) ∧
    (assemble (.insn i :: rest)).length = (assemble rest).length + 2

/-! ## The cycle -/

/-- 40_cycle.md section 1: when the two bytes at a fetchable `PC` decode to `i`, the step samples the keys, sets
`PC <- a + 2`, runs `exec i`, and ends the cycle: at once with the error when the handler failed, else with a tick
under `Coupled` and status `Ok`. -/
def Obligations.StepRunsDecodedInstruction : Prop :=
  ∀ (s s0 : State) (keys : Vector Bool 16) (rand : Byte) (i : Instr),
    s.TakesCycle keys rand s0 → s.exec = .running → fetchOK s.pc = true →
    decode (wordOfBytes (s.readByte s.pc.toNat) (s.readByte (s.pc.toNat + 1))) = .ok i →
    ∃ t, exec i { s0 with keyPrev := s.keyCur, keyCur := keys, rand := rand, events := [], pc := s.pc + 2 } = .next t ∧
      (t.exec = .faulted → step s = .next { t with status := .err t.fault, events := [] }) ∧
      (t.exec ≠ .faulted → s.params.timerCoupling = .coupled → step s = .next { t.tick with status := .ok }) ∧
      (t.exec ≠ .faulted → s.params.timerCoupling = .decoupled → step s = .next { t with status := .ok })

/-- 40_cycle.md R156: the fetchable addresses, and what a cycle at any other `PC` does: `InvalidPC` before `PC`
changes. -/
def Obligations.UnfetchablePcIsInvalidPC : Prop :=
  (∀ a : Word, fetchOK a = true ↔ a.toNat % 2 = 0 ∧ 0x200 ≤ a.toNat ∧ a.toNat ≤ 0xFFC) ∧
  ∀ (s s0 : State) (keys : Vector Bool 16) (rand : Byte),
    s.TakesCycle keys rand s0 → s.exec = .running →
    (s.pc.toNat % 2 ≠ 0 ∨ s.pc.toNat < 0x200 ∨ s.pc.toNat + 1 > 0xFFE) →
    step s = .next { s0 with
      keyPrev := s.keyCur, keyCur := keys, rand := rand, events := [],
      exec := .faulted,
      fault := some { kind := .invalidPC, opcode := none, pc := s.pc, addr := some s.pc.toNat },
      status := .err (some { kind := .invalidPC, opcode := none, pc := s.pc, addr := some s.pc.toNat }) }

/-- 60_exceptions.md R421 and R431: an unknown opcode is fatal under `Strict`; under `Lenient` it does nothing, `PC`
keeps its advance, the cycle ticks under `Coupled`, and the result is `Warn`. -/
def Obligations.UnknownOpcodeFollowsPolicy : Prop :=
  ∀ (s s0 : State) (keys : Vector Bool 16) (rand : Byte) (op : Word) (r : ErrorRecord),
    s.TakesCycle keys rand s0 → s.exec = .running → fetchOK s.pc = true →
    op = wordOfBytes (s.readByte s.pc.toNat) (s.readByte (s.pc.toNat + 1)) → decode op = .error (.unknown op) →
    r = { kind := .unknownOpcode, opcode := some op, pc := s.pc, addr := none } →
    (s.params.unknownOpcode = .strict →
      step s = .next { s0 with
        keyPrev := s.keyCur, keyCur := keys, rand := rand, events := [], pc := s.pc + 2,
        exec := .faulted, fault := some r, status := .err (some r) }) ∧
    (s.params.unknownOpcode = .lenient → s.params.timerCoupling = .decoupled →
      step s = .next { s0 with
        keyPrev := s.keyCur, keyCur := keys, rand := rand, events := [], pc := s.pc + 2, status := .warn r }) ∧
    (s.params.unknownOpcode = .lenient → s.params.timerCoupling = .coupled →
      ∃ t, step s = .next t ∧
        t = { s0 with
          keyPrev := s.keyCur, keyCur := keys, rand := rand, pc := s.pc + 2, status := .warn r,
          dt := t.dt, st := t.st, events := t.events } ∧
        t.dt.toNat = s.dt.toNat - 1 ∧ t.st.toNat = s.st.toNat - 1 ∧
        t.events = if s.st.toNat = 1 then [.audioOff] else [])

/-- 60_exceptions.md R425: the state after a cycle that fails is the state before it with the new input sample, the
advance of `PC` when the fetch succeeded, `Exec = Faulted` and the record; no tick, no event. -/
def Obligations.FailedCycleCommitsNothing : Prop :=
  ∀ (s s0 t : State) (keys : Vector Bool 16) (rand : Byte),
    s.TakesCycle keys rand s0 → s.exec = .running → step s = .next t → t.exec = .faulted →
    t.fault.isSome = true ∧
    t = { s0 with
      keyPrev := s.keyCur, keyCur := keys, rand := rand, events := [],
      pc := if fetchOK s.pc then s.pc + 2 else s.pc,
      exec := .faulted, fault := t.fault, status := .err t.fault }

/-- 45_keypad.md R366, R367, 40_cycle.md R166: a cycle in `WaitingForKey` samples, and resolves the wait with the
lowest key that has a down edge; nothing else changes. -/
def Obligations.WaitingCycleTakesLowestEdge : Prop :=
  ∀ (s s0 : State) (keys : Vector Bool 16) (rand : Byte),
    s.TakesCycle keys rand s0 → s.exec = .waitingForKey →
    ((∀ k : Key, ¬KeyEdge s.keyCur keys k) →
      step s = .next { s0 with keyPrev := s.keyCur, keyCur := keys, status := .ok, events := [] }) ∧
    (∀ k : Key, KeyEdge s.keyCur keys k → (∀ j : Key, j < k → ¬KeyEdge s.keyCur keys j) →
      step s = .next { s0 with
        keyPrev := s.keyCur, keyCur := keys, status := .ok, events := [],
        v := s.v.set s.waitReg (BitVec.ofNat 8 k.val), exec := .running })

/-- 45_keypad.md section 3: however many cycles pass, a wait is not resolved while the host's vector stays what the
latest sample was: a key held down is no edge. -/
def Obligations.HeldKeysNeverResolveTheWait : Prop :=
  ∀ (n : Nat) (s : State) (rand : Byte),
    s.exec = .waitingForKey → s.hostOps = List.replicate n (.cycle s.keyCur rand) →
    ∃ t, Sys2Proof.core.run n s = .next t ∧ t.exec = .waitingForKey ∧ t.v = s.v ∧ t.pc = s.pc ∧ t.dt = s.dt ∧
      t.st = s.st ∧ t.waitReg = s.waitReg

/-- 40_cycle.md R167: a cycle in `Faulted` changes no state and does not sample; its result is the same error. -/
def Obligations.FaultedCycleChangesNothing : Prop :=
  ∀ (s s0 : State) (keys : Vector Bool 16) (rand : Byte),
    s.TakesCycle keys rand s0 → s.exec = .faulted →
    step s = .next { s0 with status := .err s.fault, events := [] }

/-- 46_timers.md R390: the tick. -/
def Obligations.TickCountsBothTimersDown : Prop :=
  ∀ s : State,
    (s.tick).dt.toNat = s.dt.toNat - 1 ∧ (s.tick).st.toNat = s.st.toNat - 1 ∧
    (s.tick).events = s.events ++ (if s.st.toNat = 1 then [.audioOff] else []) ∧
    s.tick = { s with dt := (s.tick).dt, st := (s.tick).st, events := (s.tick).events }

/-- 46_timers.md section 1: over a whole cycle each timer counts down by one exactly when the cycle is a `Running` one
under `Coupled` that does not fail, unless the instruction is the one that writes it; in every other cycle it stays. -/
def Obligations.TimersCountOncePerCycle : Prop :=
  ∀ (s s0 t : State) (keys : Vector Bool 16) (rand : Byte),
    s.TakesCycle keys rand s0 → step s = .next t →
    (s.exec = .running → t.exec ≠ .faulted → s.params.timerCoupling = .coupled →
      ((∀ x, decode (s.fetchWord s.pc) ≠ .ok (.ldDtVx x)) → t.dt.toNat = s.dt.toNat - 1) ∧
      ((∀ x, decode (s.fetchWord s.pc) ≠ .ok (.ldStVx x)) → t.st.toNat = s.st.toNat - 1 ∧
        t.events = if s.st.toNat = 1 then [.audioOff] else [])) ∧
    (s.exec = .running → t.exec ≠ .faulted → s.params.timerCoupling = .decoupled →
      ((∀ x, decode (s.fetchWord s.pc) ≠ .ok (.ldDtVx x)) → t.dt = s.dt) ∧
      ((∀ x, decode (s.fetchWord s.pc) ≠ .ok (.ldStVx x)) → t.st = s.st ∧ t.events = [])) ∧
    ((s.exec ≠ .running ∨ t.exec = .faulted) → t.dt = s.dt ∧ t.st = s.st ∧ t.events = [])

/-- 70_reset_and_hazards.md section 3: under `Coupled` a program reads back one less than it wrote: `Fx15` and then
`Fy07` leaves `Vx - 1` (0 when `Vx` is 0) in `Vy`. -/
def Obligations.WrittenDelayTimerReadsBackOneLess : Prop :=
  ∀ (s : State) (x y : Reg) (k₁ k₂ : Vector Bool 16) (r₁ r₂ : Byte),
    s.exec = .running → s.params.timerCoupling = .coupled →
    s.hostOps = [.cycle k₁ r₁, .cycle k₂ r₂] →
    s.pc.toNat % 2 = 0 → 0x200 ≤ s.pc.toNat → s.pc.toNat + 2 ≤ 0xFFC →
    decode (s.fetchWord s.pc) = .ok (.ldDtVx x) → decode (s.fetchWord (s.pc + 2)) = .ok (.ldVxDt y) →
    ∃ t, Sys2Proof.core.run 2 s = .next t ∧ t.v[y].toNat = s.v[x].toNat - 1 ∧ t.pc = s.pc + 4

/-- The instruction placed by `withFetchWord` is the one the next cycle fetches (the model's own operation, log
entry 10), in a state whose memory is canonical. -/
def Obligations.PlacedWordIsFetchedNext : Prop :=
  ∀ (s : State) (w : Nat), Memory.wf s.params.font s.mem = true →
    (s.withFetchWord 16 w).exec = .running ∧ fetchOK (s.withFetchWord 16 w).pc = true ∧
    (s.withFetchWord 16 w).fetchWord (s.withFetchWord 16 w).pc = BitVec.ofNat 16 w ∧
    ∃ keys rand s0, (s.withFetchWord 16 w).TakesCycle keys rand s0

/-! ## The other host operations -/

/-- 10_state.md R47: the value of every element after reset. -/
def Obligations.ResetValues : Prop :=
  (∀ a : Nat, (h : a < 80) → State.reset.readByte a = State.reset.params.font[a]) ∧
  (∀ a : Nat, 80 ≤ a → State.reset.readByte a = 0) ∧
  (∀ x : Reg, State.reset.v[x] = 0) ∧ State.reset.i = 0 ∧ State.reset.pc = 0x200 ∧ State.reset.sp = 0 ∧
  (∀ j : Fin 16, State.reset.stack[j] = 0) ∧ State.reset.dt = 0 ∧ State.reset.st = 0 ∧
  (∀ cx cy : Nat, Frame.cell State.reset.fb cx cy = false) ∧ State.reset.drawFlag = true ∧
  (∀ k : Key, State.reset.keyCur[k] = false ∧ State.reset.keyPrev[k] = false) ∧
  State.reset.exec = .running ∧ State.reset.waitReg = 0 ∧ State.reset.fault = none

/-- 40_cycle.md R161 and 70_reset_and_hazards.md R460: the host's `reset`, in any state, gives every element its reset
value, the font of the parameter included. That the parameters, the pending operations and the draw counter stay is
the model's choice (log entry 9). -/
def Obligations.HostResetInAnyState : Prop :=
  ∀ (s : State) (ops : List HostOp), s.hostOps = .reset :: ops →
    ∃ t, step s = .next t ∧
      t = { State.reset with params := s.params, hostOps := ops, draws := s.draws } ∧
      (∀ a : Nat, (h : a < 80) → t.readByte a = s.params.font[a]) ∧ (∀ a : Nat, 80 ≤ a → t.readByte a = 0)

/-- 40_cycle.md R162: `load_program`, in the three cases of its pseudocode. -/
def Obligations.LoadProgramCopiesOrFails : Prop :=
  ∀ (s : State) (rom : List Byte) (ops : List HostOp), s.hostOps = .loadProgram rom :: ops →
    (s.exec = .faulted → step s = .next { s with hostOps := ops, status := .err s.fault, events := [] }) ∧
    (s.exec ≠ .faulted → rom.length > 3584 →
      step s = .next { s with
        hostOps := ops, exec := .faulted,
        fault := some { kind := .romTooLarge, opcode := none, pc := s.pc, addr := none },
        status := .err (some { kind := .romTooLarge, opcode := none, pc := s.pc, addr := none }), events := [] }) ∧
    (s.exec ≠ .faulted → rom.length ≤ 3584 → Memory.wf s.params.font s.mem = true →
      ∃ t, step s = .next t ∧ t = { s with hostOps := ops, mem := t.mem, status := .ok, events := [] } ∧
        (∀ k, (h : k < rom.length) → t.readByte (0x200 + k) = rom[k]) ∧
        (∀ a, a < 0x200 ∨ 0x200 + rom.length ≤ a → t.readByte a = s.readByte a))

/-- 40_cycle.md R163: `timer_tick` is refused under `Coupled`; under `Decoupled` it is one tick in `Running` and
`WaitingForKey` and changes nothing in `Faulted`. -/
def Obligations.TimerTickByCoupling : Prop :=
  ∀ (s : State) (ops : List HostOp), s.hostOps = .timerTick :: ops →
    (s.params.timerCoupling = .coupled → step s = .refused .timerTickUnderCoupled) ∧
    (s.params.timerCoupling = .decoupled → s.exec = .faulted → step s = .next { s with hostOps := ops, events := [] }) ∧
    (s.params.timerCoupling = .decoupled → s.exec ≠ .faulted →
      ∃ t, step s = .next t ∧
        t = { s with hostOps := ops, dt := t.dt, st := t.st, events := t.events } ∧
        t.dt.toNat = s.dt.toNat - 1 ∧ t.st.toNat = s.st.toNat - 1 ∧
        t.events = if s.st.toNat = 1 then [.audioOff] else [])

/-- 40_cycle.md R164: `ack_draw` sets `DrawFlag <- false` and changes nothing else, in every state. -/
def Obligations.AckDrawClearsOnlyTheFlag : Prop :=
  ∀ (s : State) (ops : List HostOp), s.hostOps = .ackDraw :: ops →
    step s = .next { s with hostOps := ops, drawFlag := false }

/-- 40_cycle.md R165: the view returns the 2048 cells in row-major order, the flag, `Exec` and `Fault`, and changes
no state. -/
def Obligations.ViewIsRowMajorAndReadOnly : Prop :=
  ∀ (s : State) (ops : List HostOp), s.hostOps = .view :: ops →
    step s = .next { s with hostOps := ops } ∧
    s.view.cells.length = 2048 ∧
    (∀ x y : Nat, x < 64 → y < 32 → s.view.cells[y * 64 + x]? = some (Frame.cell s.fb x y)) ∧
    s.view.drawFlag = s.drawFlag ∧ s.view.exec = s.exec ∧ s.view.fault = s.fault

/-- A step has a next state in every state but one kind: the only refusal is `timer_tick` under `Coupled`
(40_cycle.md section 2), and there is no fault (log entry 7). -/
def Obligations.StepRefusesOnlyCoupledTimerTick : Prop :=
  ∀ s : State, (∃ t, step s = .next t) ∨
    (step s = .refused .timerTickUnderCoupled ∧ s.params.timerCoupling = .coupled ∧
      ∃ ops, s.hostOps = .timerTick :: ops)

/-! ## Invariants and whole-machine rules -/

/-- The invariant holds after reset. Its clause on the canonical form of memory is the model's (log entry 11). -/
def Obligations.ResetSatisfiesInvariant : Prop := State.reset.Inv

/-- Every step, in every state that meets the invariant, keeps it: memory stays canonical, a record is there exactly
in `Faulted` and says what its kind asks, `PC` never exceeds `0x10FE`, and the stack holds return addresses only. The
canonical form of memory is the model's choice (log entry 11). -/
def Obligations.StepKeepsInvariant : Prop :=
  ∀ s t : State, s.Inv → step s = .next t → t.Inv

/-- 00_scope.md section 4: the parameters are fixed; no step changes them. -/
def Obligations.ParametersNeverChange : Prop :=
  ∀ s t : State, step s = .next t → t.params = s.params

/-- The transitions of `Exec`: those listed in 10_state.md section 8 (R43), reset in any state (40_cycle.md section 2),
and the sticky `Faulted` (60_exceptions.md section 2). One more is the model's reading, not R43's list: from
`WaitingForKey` a load of too large a ROM enters `Faulted` (log entry 13, DEDUCED from the pseudocode of 40_cycle.md
section 2 and from 60_exceptions.md section 1, R424). -/
def Obligations.ExecTransitions : Prop :=
  ∀ s t : State, step s = .next t →
    (s.exec = .running →
      t.exec = .running ∨ (t.exec = .faulted ∧ t.fault.isSome = true) ∨
      (t.exec = .waitingForKey ∧ decode (s.fetchWord s.pc) = .ok (.ldVxK t.waitReg))) ∧
    (s.exec = .waitingForKey →
      t.exec = .waitingForKey ∨
      (t.exec = .running ∧ ((∃ k : Key, KeyEdge s.keyCur t.keyCur k) ∨ ∃ ops, s.hostOps = .reset :: ops)) ∨
      (t.exec = .faulted ∧ ∃ rom ops, s.hostOps = .loadProgram rom :: ops ∧ rom.length > 3584)) ∧
    (s.exec = .faulted →
      (t.exec = .faulted ∧ t.fault = s.fault) ∨ (t.exec = .running ∧ ∃ ops, s.hostOps = .reset :: ops))

/-- 44_display.md R327: `DrawFlag` is set by every `00E0` and every `Dxyn` that does not fail, and by no other
instruction; no step clears it but the host's `ack_draw`. -/
def Obligations.DrawFlagSetByDrawingOnly : Prop :=
  (∀ (i : Instr) (s t : State), exec i s = .next t → s.exec = .running →
    ((i = .cls ∨ ∃ x y n, i = .drw x y n) → t.exec ≠ .faulted → t.drawFlag = true) ∧
    ((i ≠ .cls ∧ ∀ x y n, i ≠ .drw x y n) → t.drawFlag = s.drawFlag) ∧
    (t.exec = .faulted → t.drawFlag = s.drawFlag)) ∧
  (∀ s t : State, step s = .next t → s.drawFlag = true → t.drawFlag = true ∨ ∃ ops, s.hostOps = .ackDraw :: ops)

/-- 20_memory.md section 3 (R88, the accesses each instruction makes): no instruction but `Fx33` and `Fx55` changes a byte of memory. -/
def Obligations.MemoryWrittenByStoresOnly : Prop :=
  ∀ (i : Instr) (s t : State), exec i s = .next t → (∀ x, i ≠ .ldBVx x) → (∀ x, i ≠ .ldMemVx x) →
    ∀ a : Nat, t.readByte a = s.readByte a

/-- 10_state.md sections 3, 4, 5 and 6: the only instructions that write the stack, `I`, the timers and the
framebuffer. -/
def Obligations.WritersOfSpecialState : Prop :=
  ∀ (i : Instr) (s t : State), exec i s = .next t →
    (i ≠ .ret → (∀ nnn, i ≠ .call nnn) → t.sp = s.sp ∧ t.stack = s.stack) ∧
    ((∀ nnn, i ≠ .ldI nnn) → (∀ x, i ≠ .addIVx x) → (∀ x, i ≠ .ldFVx x) → t.i = s.i) ∧
    ((∀ x, i ≠ .ldDtVx x) → t.dt = s.dt) ∧
    ((∀ x, i ≠ .ldStVx x) → t.st = s.st ∧ t.events = s.events) ∧
    (i ≠ .cls → (∀ x y n, i ≠ .drw x y n) → t.fb = s.fb)

/-- 10_state.md section 2: an instruction that is not documented to set `VF`, and does not have it as its ordinary
destination, leaves it unchanged. -/
def Obligations.VFChangedOnlyWhereDocumented : Prop :=
  ∀ (i : Instr) (s t : State), exec i s = .next t →
    (∀ x y, i ≠ .addReg x y ∧ i ≠ .sub x y ∧ i ≠ .shr x y ∧ i ≠ .subn x y ∧ i ≠ .shl x y ∧ ∀ n, i ≠ .drw x y n) →
    (∀ nn, i ≠ .ldImm 15 nn ∧ i ≠ .addImm 15 nn ∧ i ≠ .rnd 15 nn) →
    (∀ y, i ≠ .ldReg 15 y ∧ i ≠ .orReg 15 y ∧ i ≠ .andReg 15 y ∧ i ≠ .xorReg 15 y) →
    i ≠ .ldVxDt 15 → i ≠ .ldVxMem 15 →
    t.v[(15 : Reg)] = s.v[(15 : Reg)]

/-- 40_cycle.md section 1 and 45_keypad.md section 1: `rand` is read by `Cxnn` only, and `KeyPrev` by no instruction:
two runs of an instruction that differ there only end in states that differ there only. -/
def Obligations.RandAndPreviousKeysAreNotRead : Prop :=
  ∀ (i : Instr) (s t : State), exec i s = .next t →
    (∀ keys : Vector Bool 16, exec i { s with keyPrev := keys } = .next { t with keyPrev := keys }) ∧
    ((∀ x nn, i ≠ .rnd x nn) → ∀ r : Byte, exec i { s with rand := r } = .next { t with rand := r })

/-! ## Control flow -/

/-- 41_control_flow.md R190: `RET` pops the return address; on an empty stack it raises `StackUnderflow` and changes
nothing else. The record's `pc` is the fetch address, two below the advanced `PC` (log entry 8). Like every statement on
an instruction below, it names the row of the opcode map that `DecodeMatchesOpcodeMap` speaks of. -/
def Obligations.ReturnPopsOrUnderflows : Prop :=
  Instr.row .ret = ⟨0xFFFF#16, 0x00EE#16⟩ ∧
  ∀ s : State,
    (∀ j : Fin 16, s.sp.val = j.val + 1 →
      exec .ret s = .next { s with sp := ⟨j.val, by omega⟩, pc := s.stack[j] }) ∧
    (s.sp.val = 0 →
      exec .ret s = .next { s with
        exec := .faulted,
        fault := some { kind := .stackUnderflow, opcode := some 0x00EE#16, pc := s.pc - 2, addr := none } })

/-- 41_control_flow.md R192: `CALL` pushes the advanced `PC` and jumps; on a full stack it raises `StackOverflow` and
changes nothing else. -/
def Obligations.CallPushesOrOverflows : Prop :=
  ∀ (s : State) (nnn : Addr12), Instr.row (.call nnn) = ⟨0xF000#16, 0x2000#16⟩ ∧
    (∀ j : Fin 16, s.sp.val = j.val →
      ∃ t, exec (.call nnn) s = .next t ∧
        t = { s with pc := t.pc, sp := ⟨j.val + 1, by omega⟩, stack := t.stack } ∧
        t.pc.toNat = nnn.toNat ∧ t.stack[j] = s.pc ∧ ∀ k : Fin 16, k ≠ j → t.stack[k] = s.stack[k]) ∧
    (s.sp.val = 16 →
      exec (.call nnn) s = .next { s with
        exec := .faulted,
        fault := some { kind := .stackOverflow, opcode := some (BitVec.ofNat 16 (0x2000 + nnn.toNat)),
                        pc := s.pc - 2, addr := none } })

/-- 10_state.md section 4: a return right after a call goes back to the instruction after the call and leaves the
stack pointer where it was. -/
def Obligations.ReturnUndoesCall : Prop :=
  ∀ (s t : State) (nnn : Addr12) (pc : Word), s.sp.val < 16 → exec (.call nnn) s = .next t →
    exec .ret { t with pc := pc } = .next { s with stack := t.stack }

/-- 41_control_flow.md R191, R197: the jumps write exactly the target, unchecked and unmasked. -/
def Obligations.JumpsWriteTheTarget : Prop :=
  ∀ (s : State) (nnn : Addr12),
    Instr.row (.jp nnn) = ⟨0xF000#16, 0x1000#16⟩ ∧ Instr.row (.jpV0 nnn) = ⟨0xF000#16, 0xB000#16⟩ ∧
    (∃ t, exec (.jp nnn) s = .next t ∧ t = { s with pc := t.pc } ∧ t.pc.toNat = nnn.toNat) ∧
    (∃ t, exec (.jpV0 nnn) s = .next t ∧ t = { s with pc := t.pc } ∧
      t.pc.toNat = s.v[(0 : Reg)].toNat + nnn.toNat ∧ t.pc.toNat ≤ 0x10FE)

/-- 41_control_flow.md R193 to R196: the four skips; a taken skip adds 2 to the advanced `PC`. -/
def Obligations.SkipsTestAndAddTwo : Prop :=
  ∀ (s : State) (x y : Reg) (nn : Byte),
    Instr.row (.seImm x nn) = ⟨0xF000#16, 0x3000#16⟩ ∧ Instr.row (.sneImm x nn) = ⟨0xF000#16, 0x4000#16⟩ ∧
    Instr.row (.seReg x y) = ⟨0xF00F#16, 0x5000#16⟩ ∧ Instr.row (.sneReg x y) = ⟨0xF00F#16, 0x9000#16⟩ ∧
    (exec (.seImm x nn) s = .next { s with pc := if s.v[x].toNat = nn.toNat then s.pc + 2 else s.pc }) ∧
    (exec (.sneImm x nn) s = .next { s with pc := if s.v[x].toNat = nn.toNat then s.pc else s.pc + 2 }) ∧
    (exec (.seReg x y) s = .next { s with pc := if s.v[x].toNat = s.v[y].toNat then s.pc + 2 else s.pc }) ∧
    (exec (.sneReg x y) s = .next { s with pc := if s.v[x].toNat = s.v[y].toNat then s.pc else s.pc + 2 })

/-! ## Register arithmetic and logic -/

/-- 42_alu.md R232 to R234 and R243: the instructions that load `Vx` and write no flag; every other register and
everything else as before. -/
def Obligations.RegisterLoadsWriteOneRegister : Prop :=
  ∀ (s : State) (x y : Reg) (nn : Byte),
    Instr.row (.ldImm x nn) = ⟨0xF000#16, 0x6000#16⟩ ∧ Instr.row (.addImm x nn) = ⟨0xF000#16, 0x7000#16⟩ ∧
    Instr.row (.ldReg x y) = ⟨0xF00F#16, 0x8000#16⟩ ∧ Instr.row (.rnd x nn) = ⟨0xF000#16, 0xC000#16⟩ ∧
    (∃ t, exec (.ldImm x nn) s = .next t ∧ t = { s with v := t.v } ∧ t.v[x] = nn ∧
      ∀ z : Reg, z ≠ x → t.v[z] = s.v[z]) ∧
    (∃ t, exec (.addImm x nn) s = .next t ∧ t = { s with v := t.v } ∧
      t.v[x].toNat = (s.v[x].toNat + nn.toNat) % 256 ∧ ∀ z : Reg, z ≠ x → t.v[z] = s.v[z]) ∧
    (∃ t, exec (.ldReg x y) s = .next t ∧ t = { s with v := t.v } ∧ t.v[x] = s.v[y] ∧
      ∀ z : Reg, z ≠ x → t.v[z] = s.v[z]) ∧
    (∃ t, exec (.rnd x nn) s = .next t ∧ t = { s with v := t.v } ∧
      (∀ j < 8, t.v[x].getLsbD j = (s.rand.getLsbD j && nn.getLsbD j)) ∧ ∀ z : Reg, z ≠ x → t.v[z] = s.v[z])

/-- 42_alu.md R235 to R237: the three bitwise operations, bit by bit; `VF` only as an ordinary destination, every
other register and everything else as before. -/
def Obligations.BitwiseOperationsWriteOneRegister : Prop :=
  ∀ (s : State) (x y : Reg),
    Instr.row (.orReg x y) = ⟨0xF00F#16, 0x8001#16⟩ ∧ Instr.row (.andReg x y) = ⟨0xF00F#16, 0x8002#16⟩ ∧
    Instr.row (.xorReg x y) = ⟨0xF00F#16, 0x8003#16⟩ ∧
    (∃ t, exec (.orReg x y) s = .next t ∧ t = { s with v := t.v } ∧
      (∀ j < 8, t.v[x].getLsbD j = (s.v[x].getLsbD j || s.v[y].getLsbD j)) ∧ ∀ z : Reg, z ≠ x → t.v[z] = s.v[z]) ∧
    (∃ t, exec (.andReg x y) s = .next t ∧ t = { s with v := t.v } ∧
      (∀ j < 8, t.v[x].getLsbD j = (s.v[x].getLsbD j && s.v[y].getLsbD j)) ∧ ∀ z : Reg, z ≠ x → t.v[z] = s.v[z]) ∧
    (∃ t, exec (.xorReg x y) s = .next t ∧ t = { s with v := t.v } ∧
      (∀ j < 8, t.v[x].getLsbD j = (s.v[x].getLsbD j ^^ s.v[y].getLsbD j)) ∧ ∀ z : Reg, z ≠ x → t.v[z] = s.v[z])

/-- 42_alu.md R238: `ADD Vx, Vy`, the sum modulo 256 and its carry. -/
def Obligations.AddSetsCarry : Prop :=
  ∀ (s : State) (x y : Reg), Instr.row (.addReg x y) = ⟨0xF00F#16, 0x8004#16⟩ ∧
    ∃ t, exec (.addReg x y) s = .next t ∧
      FlagWrite s t x ((s.v[x].toNat + s.v[y].toNat) % 256) (if s.v[x].toNat + s.v[y].toNat > 255 then 1 else 0)

/-- 42_alu.md R239 and R241: the two subtractions, modulo 256, with the no-borrow flag. -/
def Obligations.SubtractionsSetNoBorrow : Prop :=
  ∀ (s : State) (x y : Reg),
    Instr.row (.sub x y) = ⟨0xF00F#16, 0x8005#16⟩ ∧ Instr.row (.subn x y) = ⟨0xF00F#16, 0x8007#16⟩ ∧
    (∃ t, exec (.sub x y) s = .next t ∧
      FlagWrite s t x (((s.v[x].toNat : Int) - s.v[y].toNat) % 256).toNat
        (if s.v[x].toNat ≥ s.v[y].toNat then 1 else 0)) ∧
    (∃ t, exec (.subn x y) s = .next t ∧
      FlagWrite s t x (((s.v[y].toNat : Int) - s.v[x].toNat) % 256).toNat
        (if s.v[y].toNat ≥ s.v[x].toNat then 1 else 0))

/-- 42_alu.md R240 and R242: the two shifts act on `Vx` and put the bit shifted out into `VF`; `y` has no effect. -/
def Obligations.ShiftsSetTheBitShiftedOut : Prop :=
  ∀ (s : State) (x y : Reg),
    Instr.row (.shr x y) = ⟨0xF00F#16, 0x8006#16⟩ ∧ Instr.row (.shl x y) = ⟨0xF00F#16, 0x800E#16⟩ ∧
    (∃ t, exec (.shr x y) s = .next t ∧ FlagWrite s t x (s.v[x].toNat / 2) (s.v[x].toNat % 2)) ∧
    (∃ t, exec (.shl x y) s = .next t ∧ FlagWrite s t x (s.v[x].toNat * 2 % 256) (s.v[x].toNat / 128))

/-- 42_alu.md R245: the flag is 1 exactly when the sum does not fit, exactly when the difference did not wrap. -/
def Obligations.FlagsTellWrapping : Prop :=
  ∀ (s t : State) (x y : Reg), x ≠ 15 →
    (exec (.addReg x y) s = .next t → (t.v[(15 : Reg)] = 1 ↔ s.v[x].toNat + s.v[y].toNat ≥ 256)) ∧
    (exec (.sub x y) s = .next t →
      (t.v[(15 : Reg)] = 1 ↔ (t.v[x].toNat : Int) = (s.v[x].toNat : Int) - s.v[y].toNat)) ∧
    (exec (.subn x y) s = .next t →
      (t.v[(15 : Reg)] = 1 ↔ (t.v[x].toNat : Int) = (s.v[y].toNat : Int) - s.v[x].toNat))

/-! ## Index register and memory -/

/-- 43_index_memory.md R280, R281, R282: `I` is loaded, added to modulo 65536, or pointed at `5 * Vx`. -/
def Obligations.IndexRegisterWrites : Prop :=
  ∀ (s : State) (x : Reg) (nnn : Addr12),
    Instr.row (.ldI nnn) = ⟨0xF000#16, 0xA000#16⟩ ∧ Instr.row (.addIVx x) = ⟨0xF0FF#16, 0xF01E#16⟩ ∧
    Instr.row (.ldFVx x) = ⟨0xF0FF#16, 0xF029#16⟩ ∧
    (∃ t, exec (.ldI nnn) s = .next t ∧ t = { s with i := t.i } ∧ t.i.toNat = nnn.toNat) ∧
    (∃ t, exec (.addIVx x) s = .next t ∧ t = { s with i := t.i } ∧
      t.i.toNat = (s.i.toNat + s.v[x].toNat) % 65536) ∧
    (∃ t, exec (.ldFVx x) s = .next t ∧ t = { s with i := t.i } ∧ t.i.toNat = s.v[x].toNat * 5)

/-- 43_index_memory.md R283: the decimal digits at `I`, `I+1`, `I+2`, every other byte and everything else as before;
where the three bytes leave `0x000`..`0xFFF`, `MemoryOutOfBounds` and nothing else. -/
def Obligations.BcdStoresThreeDigits : Prop :=
  ∀ (s : State) (x : Reg), Instr.row (.ldBVx x) = ⟨0xF0FF#16, 0xF033#16⟩ ∧
    (s.i.toNat + 2 ≤ 0xFFF → Memory.wf s.params.font s.mem = true →
      ∃ t, exec (.ldBVx x) s = .next t ∧ t = { s with mem := t.mem } ∧
        (t.readByte s.i.toNat).toNat = s.v[x].toNat / 100 ∧
        (t.readByte (s.i.toNat + 1)).toNat = s.v[x].toNat / 10 % 10 ∧
        (t.readByte (s.i.toNat + 2)).toNat = s.v[x].toNat % 10 ∧
        ∀ a : Nat, a < s.i.toNat ∨ s.i.toNat + 3 ≤ a → t.readByte a = s.readByte a) ∧
    (s.i.toNat + 2 > 0xFFF →
      exec (.ldBVx x) s = .next { s with
        exec := .faulted,
        fault := some { kind := .memoryOutOfBounds, opcode := some (BitVec.ofNat 16 (0xF033 + x.val * 256)),
                        pc := s.pc - 2, addr := some (max s.i.toNat 0x1000) } })

/-- 43_index_memory.md R284, R285: `Fx55` stores `Vk` at `I+k` for `k` in `0..x`; `I`, every other byte and everything
else as before; where the range leaves `0x000`..`0xFFF`, `MemoryOutOfBounds` and nothing else. -/
def Obligations.StoreRegistersAtI : Prop :=
  ∀ (s : State) (x : Reg), Instr.row (.ldMemVx x) = ⟨0xF0FF#16, 0xF055#16⟩ ∧
    (s.i.toNat + x.val ≤ 0xFFF → Memory.wf s.params.font s.mem = true →
      ∃ t, exec (.ldMemVx x) s = .next t ∧ t = { s with mem := t.mem } ∧
        (∀ k : Reg, k ≤ x → t.readByte (s.i.toNat + k.val) = s.v[k]) ∧
        ∀ a : Nat, a < s.i.toNat ∨ s.i.toNat + x.val + 1 ≤ a → t.readByte a = s.readByte a) ∧
    (s.i.toNat + x.val > 0xFFF →
      exec (.ldMemVx x) s = .next { s with
        exec := .faulted,
        fault := some { kind := .memoryOutOfBounds, opcode := some (BitVec.ofNat 16 (0xF055 + x.val * 256)),
                        pc := s.pc - 2, addr := some (max s.i.toNat 0x1000) } })

/-- 43_index_memory.md R284, R286: `Fx65` loads `Vk` from `I+k` for `k` in `0..x`; the registers above `Vx`, `I`, every
byte and everything else as before; where the range leaves `0x000`..`0xFFF`, `MemoryOutOfBounds` and nothing else. -/
def Obligations.LoadRegistersFromI : Prop :=
  ∀ (s : State) (x : Reg), Instr.row (.ldVxMem x) = ⟨0xF0FF#16, 0xF065#16⟩ ∧
    (s.i.toNat + x.val ≤ 0xFFF →
      ∃ t, exec (.ldVxMem x) s = .next t ∧ t = { s with v := t.v } ∧
        (∀ k : Reg, k ≤ x → t.v[k] = s.readByte (s.i.toNat + k.val)) ∧ (∀ k : Reg, x < k → t.v[k] = s.v[k])) ∧
    (s.i.toNat + x.val > 0xFFF →
      exec (.ldVxMem x) s = .next { s with
        exec := .faulted,
        fault := some { kind := .memoryOutOfBounds, opcode := some (BitVec.ofNat 16 (0xF065 + x.val * 256)),
                        pc := s.pc - 2, addr := some (max s.i.toNat 0x1000) } })

/-- 60_exceptions.md section 1: which instruction fails, when, and with which kind of error. In every other case it
completes. -/
def Obligations.InstructionsFailExactlyWhen : Prop :=
  ∀ (i : Instr) (s t : State), exec i s = .next t → s.exec ≠ .faulted →
    (t.exec = .faulted ↔
      (i = .ret ∧ s.sp.val = 0) ∨ (∃ nnn, i = .call nnn ∧ s.sp.val = 16) ∨
      (∃ n, accessSize i = some n ∧ 1 ≤ n ∧ s.i.toNat + n - 1 > 0xFFF) ∨
      (∃ x, (i = .skp x ∨ i = .sknp x) ∧ s.v[x].toNat > 15)) ∧
    (t.exec = .faulted → ∃ r, t.fault = some r ∧ r.opcode = some (encode i) ∧
      (r.kind = .stackUnderflow ↔ i = .ret) ∧ (r.kind = .stackOverflow ↔ ∃ nnn, i = .call nnn) ∧
      (r.kind = .memoryOutOfBounds ↔ (accessSize i).isSome = true) ∧
      (r.kind = .keyOutOfRange ↔ ∃ x, i = .skp x ∨ i = .sknp x))

/-- 20_memory.md section 4: the bytes `Fx55` stores are the ones the next fetch reads, as a big-endian opcode. -/
def Obligations.StoredBytesAreFetched : Prop :=
  ∀ (s t : State) (x : Reg), 1 ≤ x.val → s.i.toNat + x.val ≤ 0xFFF → Memory.wf s.params.font s.mem = true →
    exec (.ldMemVx x) s = .next t →
    (t.fetchWord s.i).toNat = s.v[(0 : Reg)].toNat * 256 + s.v[(1 : Reg)].toNat

/-! ## Display -/

/-- 44_display.md R321 and R322: every cell dark, `DrawFlag` set, nothing else. -/
def Obligations.ClearDisplayDarkensEveryCell : Prop :=
  Instr.row .cls = ⟨0xFFFF#16, 0x00E0#16⟩ ∧
  ∀ s : State, ∃ t, exec .cls s = .next t ∧ t = { s with fb := t.fb, drawFlag := true } ∧
    ∀ x y : Nat, Frame.cell t.fb x y = false

/-- 44_display.md R323 to R326: where the sprite is in memory (always when `n = 0`) a cell is inverted exactly when a
set sprite bit lands on it, `VF` is 1 exactly when one of those was lit, `DrawFlag` is set, and nothing else changes;
elsewhere `MemoryOutOfBounds` and nothing else. The origin is the value of `Vx`, `Vy` before `VF` is written. -/
def Obligations.DrawInvertsCoveredCells : Prop :=
  ∀ (s : State) (x y : Reg) (n : Nibble), Instr.row (.drw x y n) = ⟨0xF000#16, 0xD000#16⟩ ∧
    (n.toNat = 0 ∨ s.i.toNat + n.toNat - 1 ≤ 0xFFF →
      ∃ t, exec (.drw x y n) s = .next t ∧ t = { s with v := t.v, fb := t.fb, drawFlag := true } ∧
        (∀ z : Reg, z ≠ 15 → t.v[z] = s.v[z]) ∧
        (∀ cx cy : Nat, cx < 64 → cy < 32 →
          (s.SpriteCovers s.v[x].toNat s.v[y].toNat n.toNat cx cy → Frame.cell t.fb cx cy = !Frame.cell s.fb cx cy) ∧
          (¬s.SpriteCovers s.v[x].toNat s.v[y].toNat n.toNat cx cy → Frame.cell t.fb cx cy = Frame.cell s.fb cx cy)) ∧
        ((∃ cx cy, s.SpriteCovers s.v[x].toNat s.v[y].toNat n.toNat cx cy ∧ Frame.cell s.fb cx cy = true) →
          t.v[(15 : Reg)] = 1) ∧
        ((∀ cx cy, s.SpriteCovers s.v[x].toNat s.v[y].toNat n.toNat cx cy → Frame.cell s.fb cx cy = false) →
          t.v[(15 : Reg)] = 0)) ∧
    (1 ≤ n.toNat → s.i.toNat + n.toNat - 1 > 0xFFF →
      exec (.drw x y n) s = .next { s with
        exec := .faulted,
        fault := some { kind := .memoryOutOfBounds,
                        opcode := some (BitVec.ofNat 16 (0xD000 + x.val * 256 + y.val * 16 + n.toNat)),
                        pc := s.pc - 2, addr := some (max s.i.toNat 0x1000) } })

/-- 44_display.md R328: drawing the same sprite twice restores the display; the first flag tells of a lit cell hit, the
second of an unlit one. -/
def Obligations.DrawingTwiceRestoresTheDisplay : Prop :=
  ∀ (s t u : State) (x y : Reg) (n : Nibble), x ≠ 15 → y ≠ 15 →
    (n.toNat = 0 ∨ s.i.toNat + n.toNat - 1 ≤ 0xFFF) →
    exec (.drw x y n) s = .next t → exec (.drw x y n) t = .next u →
    u.fb = s.fb ∧
    (t.v[(15 : Reg)] = 1 ↔
      ∃ cx cy, s.SpriteCovers s.v[x].toNat s.v[y].toNat n.toNat cx cy ∧ Frame.cell s.fb cx cy = true) ∧
    (u.v[(15 : Reg)] = 1 ↔
      ∃ cx cy, s.SpriteCovers s.v[x].toNat s.v[y].toNat n.toNat cx cy ∧ Frame.cell s.fb cx cy = false)

/-- 44_display.md R329: the sprite `C0 C0` at origin `(63, 31)` toggles exactly four cells, around the corner. -/
def Obligations.SpriteWrapsAtTheCorner : Prop :=
  ∀ (s : State) (x y : Reg), s.i.toNat + 1 ≤ 0xFFF → s.v[x].toNat = 63 → s.v[y].toNat = 31 →
    s.readByte s.i.toNat = 0xC0 → s.readByte (s.i.toNat + 1) = 0xC0 →
    ∃ t, exec (.drw x y 2) s = .next t ∧
      ∀ cx cy : Nat, cx < 64 → cy < 32 →
        Frame.cell t.fb cx cy =
          (Frame.cell s.fb cx cy ^^ decide ((cx, cy) ∈ [(63, 31), (0, 31), (63, 0), (0, 0)]))

/-! ## Keypad and timers -/

/-- 45_keypad.md R363, R364: the key skips read this cycle's sample; a key number above `0xF` raises `KeyOutOfRange`
and changes nothing else. -/
def Obligations.KeySkipsTestTheSample : Prop :=
  ∀ (s : State) (x : Reg),
    Instr.row (.skp x) = ⟨0xF0FF#16, 0xE09E#16⟩ ∧ Instr.row (.sknp x) = ⟨0xF0FF#16, 0xE0A1#16⟩ ∧
    (∀ k : Key, s.v[x].toNat = k.val →
      exec (.skp x) s = .next { s with pc := if s.keyCur[k] then s.pc + 2 else s.pc } ∧
      exec (.sknp x) s = .next { s with pc := if s.keyCur[k] then s.pc else s.pc + 2 }) ∧
    (s.v[x].toNat > 15 →
      exec (.skp x) s = .next { s with
        exec := .faulted,
        fault := some { kind := .keyOutOfRange, opcode := some (BitVec.ofNat 16 (0xE09E + x.val * 256)),
                        pc := s.pc - 2, addr := none } } ∧
      exec (.sknp x) s = .next { s with
        exec := .faulted,
        fault := some { kind := .keyOutOfRange, opcode := some (BitVec.ofNat 16 (0xE0A1 + x.val * 256)),
                        pc := s.pc - 2, addr := none } })

/-- 45_keypad.md R365: `LD Vx, K` enters the wait and remembers `x`; no register changes. -/
def Obligations.KeyWaitIsEntered : Prop :=
  ∀ (s : State) (x : Reg), Instr.row (.ldVxK x) = ⟨0xF0FF#16, 0xF00A#16⟩ ∧
    ∃ t, exec (.ldVxK x) s = .next t ∧ t.exec = .waitingForKey ∧ t.waitReg = x ∧
      t = { s with exec := t.exec, waitReg := t.waitReg }

/-- 46_timers.md R393 to R395: the timer instructions, before the cycle's tick, with the sound events of `Fx18`. -/
def Obligations.TimerInstructions : Prop :=
  ∀ (s : State) (x : Reg),
    Instr.row (.ldVxDt x) = ⟨0xF0FF#16, 0xF007#16⟩ ∧ Instr.row (.ldDtVx x) = ⟨0xF0FF#16, 0xF015#16⟩ ∧
    Instr.row (.ldStVx x) = ⟨0xF0FF#16, 0xF018#16⟩ ∧
    (∃ t, exec (.ldVxDt x) s = .next t ∧ t = { s with v := t.v } ∧ t.v[x] = s.dt ∧
      ∀ z : Reg, z ≠ x → t.v[z] = s.v[z]) ∧
    (exec (.ldDtVx x) s = .next { s with dt := s.v[x] }) ∧
    (∃ t, exec (.ldStVx x) s = .next t ∧ t = { s with st := s.v[x], events := t.events } ∧
      (s.v[x].toNat ≥ 1 → t.events = s.events ++ [.audioOn]) ∧
      (s.v[x].toNat = 0 → s.st.toNat > 0 → t.events = s.events ++ [.audioOff]) ∧
      (s.v[x].toNat = 0 → s.st.toNat = 0 → t.events = s.events))
end

