-- ==== Sys2Proof/Laws/State.lean ====
section
/-! SUPPORT. Each field of the state after each update, so that no later proof unfolds a record update. -/

namespace Sys2Proof.Machine

section
variable (s : State)

/-! ### setReg -/

@[simp] theorem setReg_mem (x : Reg) (b : Byte) : (s.setReg x b).mem = s.mem := rfl
@[simp] theorem setReg_v (x : Reg) (b : Byte) : (s.setReg x b).v = s.v.set x b := rfl
@[simp] theorem setReg_i (x : Reg) (b : Byte) : (s.setReg x b).i = s.i := rfl
@[simp] theorem setReg_pc (x : Reg) (b : Byte) : (s.setReg x b).pc = s.pc := rfl
@[simp] theorem setReg_sp (x : Reg) (b : Byte) : (s.setReg x b).sp = s.sp := rfl
@[simp] theorem setReg_stack (x : Reg) (b : Byte) : (s.setReg x b).stack = s.stack := rfl
@[simp] theorem setReg_dt (x : Reg) (b : Byte) : (s.setReg x b).dt = s.dt := rfl
@[simp] theorem setReg_st (x : Reg) (b : Byte) : (s.setReg x b).st = s.st := rfl
@[simp] theorem setReg_fb (x : Reg) (b : Byte) : (s.setReg x b).fb = s.fb := rfl
@[simp] theorem setReg_drawFlag (x : Reg) (b : Byte) : (s.setReg x b).drawFlag = s.drawFlag := rfl
@[simp] theorem setReg_keyCur (x : Reg) (b : Byte) : (s.setReg x b).keyCur = s.keyCur := rfl
@[simp] theorem setReg_keyPrev (x : Reg) (b : Byte) : (s.setReg x b).keyPrev = s.keyPrev := rfl
@[simp] theorem setReg_exec (x : Reg) (b : Byte) : (s.setReg x b).exec = s.exec := rfl
@[simp] theorem setReg_waitReg (x : Reg) (b : Byte) : (s.setReg x b).waitReg = s.waitReg := rfl
@[simp] theorem setReg_fault (x : Reg) (b : Byte) : (s.setReg x b).fault = s.fault := rfl
@[simp] theorem setReg_params (x : Reg) (b : Byte) : (s.setReg x b).params = s.params := rfl
@[simp] theorem setReg_hostOps (x : Reg) (b : Byte) : (s.setReg x b).hostOps = s.hostOps := rfl
@[simp] theorem setReg_rand (x : Reg) (b : Byte) : (s.setReg x b).rand = s.rand := rfl
@[simp] theorem setReg_status (x : Reg) (b : Byte) : (s.setReg x b).status = s.status := rfl
@[simp] theorem setReg_events (x : Reg) (b : Byte) : (s.setReg x b).events = s.events := rfl
@[simp] theorem setReg_draws (x : Reg) (b : Byte) : (s.setReg x b).draws = s.draws := rfl

/-! ### loadRegs -/

@[simp] theorem loadRegs_mem (bytes : List Byte) : (s.loadRegs bytes).mem = s.mem := rfl
@[simp] theorem loadRegs_v (bytes : List Byte) : (s.loadRegs bytes).v = loadRegsFrom 0 bytes s.v := rfl
@[simp] theorem loadRegs_i (bytes : List Byte) : (s.loadRegs bytes).i = s.i := rfl
@[simp] theorem loadRegs_pc (bytes : List Byte) : (s.loadRegs bytes).pc = s.pc := rfl
@[simp] theorem loadRegs_sp (bytes : List Byte) : (s.loadRegs bytes).sp = s.sp := rfl
@[simp] theorem loadRegs_stack (bytes : List Byte) : (s.loadRegs bytes).stack = s.stack := rfl
@[simp] theorem loadRegs_dt (bytes : List Byte) : (s.loadRegs bytes).dt = s.dt := rfl
@[simp] theorem loadRegs_st (bytes : List Byte) : (s.loadRegs bytes).st = s.st := rfl
@[simp] theorem loadRegs_fb (bytes : List Byte) : (s.loadRegs bytes).fb = s.fb := rfl
@[simp] theorem loadRegs_drawFlag (bytes : List Byte) : (s.loadRegs bytes).drawFlag = s.drawFlag := rfl
@[simp] theorem loadRegs_keyCur (bytes : List Byte) : (s.loadRegs bytes).keyCur = s.keyCur := rfl
@[simp] theorem loadRegs_keyPrev (bytes : List Byte) : (s.loadRegs bytes).keyPrev = s.keyPrev := rfl
@[simp] theorem loadRegs_exec (bytes : List Byte) : (s.loadRegs bytes).exec = s.exec := rfl
@[simp] theorem loadRegs_waitReg (bytes : List Byte) : (s.loadRegs bytes).waitReg = s.waitReg := rfl
@[simp] theorem loadRegs_fault (bytes : List Byte) : (s.loadRegs bytes).fault = s.fault := rfl
@[simp] theorem loadRegs_params (bytes : List Byte) : (s.loadRegs bytes).params = s.params := rfl
@[simp] theorem loadRegs_hostOps (bytes : List Byte) : (s.loadRegs bytes).hostOps = s.hostOps := rfl
@[simp] theorem loadRegs_rand (bytes : List Byte) : (s.loadRegs bytes).rand = s.rand := rfl
@[simp] theorem loadRegs_status (bytes : List Byte) : (s.loadRegs bytes).status = s.status := rfl
@[simp] theorem loadRegs_events (bytes : List Byte) : (s.loadRegs bytes).events = s.events := rfl
@[simp] theorem loadRegs_draws (bytes : List Byte) : (s.loadRegs bytes).draws = s.draws := rfl

/-! ### setI -/

@[simp] theorem setI_mem (w : Word) : (s.setI w).mem = s.mem := rfl
@[simp] theorem setI_v (w : Word) : (s.setI w).v = s.v := rfl
@[simp] theorem setI_i (w : Word) : (s.setI w).i = w := rfl
@[simp] theorem setI_pc (w : Word) : (s.setI w).pc = s.pc := rfl
@[simp] theorem setI_sp (w : Word) : (s.setI w).sp = s.sp := rfl
@[simp] theorem setI_stack (w : Word) : (s.setI w).stack = s.stack := rfl
@[simp] theorem setI_dt (w : Word) : (s.setI w).dt = s.dt := rfl
@[simp] theorem setI_st (w : Word) : (s.setI w).st = s.st := rfl
@[simp] theorem setI_fb (w : Word) : (s.setI w).fb = s.fb := rfl
@[simp] theorem setI_drawFlag (w : Word) : (s.setI w).drawFlag = s.drawFlag := rfl
@[simp] theorem setI_keyCur (w : Word) : (s.setI w).keyCur = s.keyCur := rfl
@[simp] theorem setI_keyPrev (w : Word) : (s.setI w).keyPrev = s.keyPrev := rfl
@[simp] theorem setI_exec (w : Word) : (s.setI w).exec = s.exec := rfl
@[simp] theorem setI_waitReg (w : Word) : (s.setI w).waitReg = s.waitReg := rfl
@[simp] theorem setI_fault (w : Word) : (s.setI w).fault = s.fault := rfl
@[simp] theorem setI_params (w : Word) : (s.setI w).params = s.params := rfl
@[simp] theorem setI_hostOps (w : Word) : (s.setI w).hostOps = s.hostOps := rfl
@[simp] theorem setI_rand (w : Word) : (s.setI w).rand = s.rand := rfl
@[simp] theorem setI_status (w : Word) : (s.setI w).status = s.status := rfl
@[simp] theorem setI_events (w : Word) : (s.setI w).events = s.events := rfl
@[simp] theorem setI_draws (w : Word) : (s.setI w).draws = s.draws := rfl

/-! ### writeBytes -/

@[simp] theorem writeBytes_mem (a : Nat) (vs : List Byte) : (s.writeBytes a vs).mem = Memory.writeAll s.params.font s.mem a vs := rfl
@[simp] theorem writeBytes_v (a : Nat) (vs : List Byte) : (s.writeBytes a vs).v = s.v := rfl
@[simp] theorem writeBytes_i (a : Nat) (vs : List Byte) : (s.writeBytes a vs).i = s.i := rfl
@[simp] theorem writeBytes_pc (a : Nat) (vs : List Byte) : (s.writeBytes a vs).pc = s.pc := rfl
@[simp] theorem writeBytes_sp (a : Nat) (vs : List Byte) : (s.writeBytes a vs).sp = s.sp := rfl
@[simp] theorem writeBytes_stack (a : Nat) (vs : List Byte) : (s.writeBytes a vs).stack = s.stack := rfl
@[simp] theorem writeBytes_dt (a : Nat) (vs : List Byte) : (s.writeBytes a vs).dt = s.dt := rfl
@[simp] theorem writeBytes_st (a : Nat) (vs : List Byte) : (s.writeBytes a vs).st = s.st := rfl
@[simp] theorem writeBytes_fb (a : Nat) (vs : List Byte) : (s.writeBytes a vs).fb = s.fb := rfl
@[simp] theorem writeBytes_drawFlag (a : Nat) (vs : List Byte) : (s.writeBytes a vs).drawFlag = s.drawFlag := rfl
@[simp] theorem writeBytes_keyCur (a : Nat) (vs : List Byte) : (s.writeBytes a vs).keyCur = s.keyCur := rfl
@[simp] theorem writeBytes_keyPrev (a : Nat) (vs : List Byte) : (s.writeBytes a vs).keyPrev = s.keyPrev := rfl
@[simp] theorem writeBytes_exec (a : Nat) (vs : List Byte) : (s.writeBytes a vs).exec = s.exec := rfl
@[simp] theorem writeBytes_waitReg (a : Nat) (vs : List Byte) : (s.writeBytes a vs).waitReg = s.waitReg := rfl
@[simp] theorem writeBytes_fault (a : Nat) (vs : List Byte) : (s.writeBytes a vs).fault = s.fault := rfl
@[simp] theorem writeBytes_params (a : Nat) (vs : List Byte) : (s.writeBytes a vs).params = s.params := rfl
@[simp] theorem writeBytes_hostOps (a : Nat) (vs : List Byte) : (s.writeBytes a vs).hostOps = s.hostOps := rfl
@[simp] theorem writeBytes_rand (a : Nat) (vs : List Byte) : (s.writeBytes a vs).rand = s.rand := rfl
@[simp] theorem writeBytes_status (a : Nat) (vs : List Byte) : (s.writeBytes a vs).status = s.status := rfl
@[simp] theorem writeBytes_events (a : Nat) (vs : List Byte) : (s.writeBytes a vs).events = s.events := rfl
@[simp] theorem writeBytes_draws (a : Nat) (vs : List Byte) : (s.writeBytes a vs).draws = s.draws := rfl

/-! ### enterFault -/

@[simp] theorem enterFault_mem (r : ErrorRecord) : (s.enterFault r).mem = s.mem := rfl
@[simp] theorem enterFault_v (r : ErrorRecord) : (s.enterFault r).v = s.v := rfl
@[simp] theorem enterFault_i (r : ErrorRecord) : (s.enterFault r).i = s.i := rfl
@[simp] theorem enterFault_pc (r : ErrorRecord) : (s.enterFault r).pc = s.pc := rfl
@[simp] theorem enterFault_sp (r : ErrorRecord) : (s.enterFault r).sp = s.sp := rfl
@[simp] theorem enterFault_stack (r : ErrorRecord) : (s.enterFault r).stack = s.stack := rfl
@[simp] theorem enterFault_dt (r : ErrorRecord) : (s.enterFault r).dt = s.dt := rfl
@[simp] theorem enterFault_st (r : ErrorRecord) : (s.enterFault r).st = s.st := rfl
@[simp] theorem enterFault_fb (r : ErrorRecord) : (s.enterFault r).fb = s.fb := rfl
@[simp] theorem enterFault_drawFlag (r : ErrorRecord) : (s.enterFault r).drawFlag = s.drawFlag := rfl
@[simp] theorem enterFault_keyCur (r : ErrorRecord) : (s.enterFault r).keyCur = s.keyCur := rfl
@[simp] theorem enterFault_keyPrev (r : ErrorRecord) : (s.enterFault r).keyPrev = s.keyPrev := rfl
@[simp] theorem enterFault_exec (r : ErrorRecord) : (s.enterFault r).exec = .faulted := rfl
@[simp] theorem enterFault_waitReg (r : ErrorRecord) : (s.enterFault r).waitReg = s.waitReg := rfl
@[simp] theorem enterFault_fault (r : ErrorRecord) : (s.enterFault r).fault = some r := rfl
@[simp] theorem enterFault_params (r : ErrorRecord) : (s.enterFault r).params = s.params := rfl
@[simp] theorem enterFault_hostOps (r : ErrorRecord) : (s.enterFault r).hostOps = s.hostOps := rfl
@[simp] theorem enterFault_rand (r : ErrorRecord) : (s.enterFault r).rand = s.rand := rfl
@[simp] theorem enterFault_status (r : ErrorRecord) : (s.enterFault r).status = s.status := rfl
@[simp] theorem enterFault_events (r : ErrorRecord) : (s.enterFault r).events = s.events := rfl
@[simp] theorem enterFault_draws (r : ErrorRecord) : (s.enterFault r).draws = s.draws := rfl

/-! ### jump -/

@[simp] theorem jump_mem (w : Word) : (s.jump w).mem = s.mem := rfl
@[simp] theorem jump_v (w : Word) : (s.jump w).v = s.v := rfl
@[simp] theorem jump_i (w : Word) : (s.jump w).i = s.i := rfl
@[simp] theorem jump_pc (w : Word) : (s.jump w).pc = w := rfl
@[simp] theorem jump_sp (w : Word) : (s.jump w).sp = s.sp := rfl
@[simp] theorem jump_stack (w : Word) : (s.jump w).stack = s.stack := rfl
@[simp] theorem jump_dt (w : Word) : (s.jump w).dt = s.dt := rfl
@[simp] theorem jump_st (w : Word) : (s.jump w).st = s.st := rfl
@[simp] theorem jump_fb (w : Word) : (s.jump w).fb = s.fb := rfl
@[simp] theorem jump_drawFlag (w : Word) : (s.jump w).drawFlag = s.drawFlag := rfl
@[simp] theorem jump_keyCur (w : Word) : (s.jump w).keyCur = s.keyCur := rfl
@[simp] theorem jump_keyPrev (w : Word) : (s.jump w).keyPrev = s.keyPrev := rfl
@[simp] theorem jump_exec (w : Word) : (s.jump w).exec = s.exec := rfl
@[simp] theorem jump_waitReg (w : Word) : (s.jump w).waitReg = s.waitReg := rfl
@[simp] theorem jump_fault (w : Word) : (s.jump w).fault = s.fault := rfl
@[simp] theorem jump_params (w : Word) : (s.jump w).params = s.params := rfl
@[simp] theorem jump_hostOps (w : Word) : (s.jump w).hostOps = s.hostOps := rfl
@[simp] theorem jump_rand (w : Word) : (s.jump w).rand = s.rand := rfl
@[simp] theorem jump_status (w : Word) : (s.jump w).status = s.status := rfl
@[simp] theorem jump_events (w : Word) : (s.jump w).events = s.events := rfl
@[simp] theorem jump_draws (w : Word) : (s.jump w).draws = s.draws := rfl

/-! ### skipIf -/

@[simp] theorem skipIf_mem (c : Bool) : (s.skipIf c).mem = s.mem := rfl
@[simp] theorem skipIf_v (c : Bool) : (s.skipIf c).v = s.v := rfl
@[simp] theorem skipIf_i (c : Bool) : (s.skipIf c).i = s.i := rfl
@[simp] theorem skipIf_pc (c : Bool) : (s.skipIf c).pc = if c then s.pc + 2 else s.pc := rfl
@[simp] theorem skipIf_sp (c : Bool) : (s.skipIf c).sp = s.sp := rfl
@[simp] theorem skipIf_stack (c : Bool) : (s.skipIf c).stack = s.stack := rfl
@[simp] theorem skipIf_dt (c : Bool) : (s.skipIf c).dt = s.dt := rfl
@[simp] theorem skipIf_st (c : Bool) : (s.skipIf c).st = s.st := rfl
@[simp] theorem skipIf_fb (c : Bool) : (s.skipIf c).fb = s.fb := rfl
@[simp] theorem skipIf_drawFlag (c : Bool) : (s.skipIf c).drawFlag = s.drawFlag := rfl
@[simp] theorem skipIf_keyCur (c : Bool) : (s.skipIf c).keyCur = s.keyCur := rfl
@[simp] theorem skipIf_keyPrev (c : Bool) : (s.skipIf c).keyPrev = s.keyPrev := rfl
@[simp] theorem skipIf_exec (c : Bool) : (s.skipIf c).exec = s.exec := rfl
@[simp] theorem skipIf_waitReg (c : Bool) : (s.skipIf c).waitReg = s.waitReg := rfl
@[simp] theorem skipIf_fault (c : Bool) : (s.skipIf c).fault = s.fault := rfl
@[simp] theorem skipIf_params (c : Bool) : (s.skipIf c).params = s.params := rfl
@[simp] theorem skipIf_hostOps (c : Bool) : (s.skipIf c).hostOps = s.hostOps := rfl
@[simp] theorem skipIf_rand (c : Bool) : (s.skipIf c).rand = s.rand := rfl
@[simp] theorem skipIf_status (c : Bool) : (s.skipIf c).status = s.status := rfl
@[simp] theorem skipIf_events (c : Bool) : (s.skipIf c).events = s.events := rfl
@[simp] theorem skipIf_draws (c : Bool) : (s.skipIf c).draws = s.draws := rfl

/-! ### clearDisplay -/

@[simp] theorem clearDisplay_mem : (s.clearDisplay).mem = s.mem := rfl
@[simp] theorem clearDisplay_v : (s.clearDisplay).v = s.v := rfl
@[simp] theorem clearDisplay_i : (s.clearDisplay).i = s.i := rfl
@[simp] theorem clearDisplay_pc : (s.clearDisplay).pc = s.pc := rfl
@[simp] theorem clearDisplay_sp : (s.clearDisplay).sp = s.sp := rfl
@[simp] theorem clearDisplay_stack : (s.clearDisplay).stack = s.stack := rfl
@[simp] theorem clearDisplay_dt : (s.clearDisplay).dt = s.dt := rfl
@[simp] theorem clearDisplay_st : (s.clearDisplay).st = s.st := rfl
@[simp] theorem clearDisplay_fb : (s.clearDisplay).fb = Frame.blank := rfl
@[simp] theorem clearDisplay_drawFlag : (s.clearDisplay).drawFlag = true := rfl
@[simp] theorem clearDisplay_keyCur : (s.clearDisplay).keyCur = s.keyCur := rfl
@[simp] theorem clearDisplay_keyPrev : (s.clearDisplay).keyPrev = s.keyPrev := rfl
@[simp] theorem clearDisplay_exec : (s.clearDisplay).exec = s.exec := rfl
@[simp] theorem clearDisplay_waitReg : (s.clearDisplay).waitReg = s.waitReg := rfl
@[simp] theorem clearDisplay_fault : (s.clearDisplay).fault = s.fault := rfl
@[simp] theorem clearDisplay_params : (s.clearDisplay).params = s.params := rfl
@[simp] theorem clearDisplay_hostOps : (s.clearDisplay).hostOps = s.hostOps := rfl
@[simp] theorem clearDisplay_rand : (s.clearDisplay).rand = s.rand := rfl
@[simp] theorem clearDisplay_status : (s.clearDisplay).status = s.status := rfl
@[simp] theorem clearDisplay_events : (s.clearDisplay).events = s.events := rfl
@[simp] theorem clearDisplay_draws : (s.clearDisplay).draws = s.draws := rfl

/-! ### draw -/

@[simp] theorem draw_mem (ox oy : Nat) (sp : List Byte) : (s.draw ox oy sp).mem = s.mem := rfl
@[simp] theorem draw_v (ox oy : Nat) (sp : List Byte) : (s.draw ox oy sp).v = s.v.set regF (flagByte (drawSprite ox oy sp s.fb).2) := rfl
@[simp] theorem draw_i (ox oy : Nat) (sp : List Byte) : (s.draw ox oy sp).i = s.i := rfl
@[simp] theorem draw_pc (ox oy : Nat) (sp : List Byte) : (s.draw ox oy sp).pc = s.pc := rfl
@[simp] theorem draw_sp (ox oy : Nat) (sp : List Byte) : (s.draw ox oy sp).sp = s.sp := rfl
@[simp] theorem draw_stack (ox oy : Nat) (sp : List Byte) : (s.draw ox oy sp).stack = s.stack := rfl
@[simp] theorem draw_dt (ox oy : Nat) (sp : List Byte) : (s.draw ox oy sp).dt = s.dt := rfl
@[simp] theorem draw_st (ox oy : Nat) (sp : List Byte) : (s.draw ox oy sp).st = s.st := rfl
@[simp] theorem draw_fb (ox oy : Nat) (sp : List Byte) : (s.draw ox oy sp).fb = (drawSprite ox oy sp s.fb).1 := rfl
@[simp] theorem draw_drawFlag (ox oy : Nat) (sp : List Byte) : (s.draw ox oy sp).drawFlag = true := rfl
@[simp] theorem draw_keyCur (ox oy : Nat) (sp : List Byte) : (s.draw ox oy sp).keyCur = s.keyCur := rfl
@[simp] theorem draw_keyPrev (ox oy : Nat) (sp : List Byte) : (s.draw ox oy sp).keyPrev = s.keyPrev := rfl
@[simp] theorem draw_exec (ox oy : Nat) (sp : List Byte) : (s.draw ox oy sp).exec = s.exec := rfl
@[simp] theorem draw_waitReg (ox oy : Nat) (sp : List Byte) : (s.draw ox oy sp).waitReg = s.waitReg := rfl
@[simp] theorem draw_fault (ox oy : Nat) (sp : List Byte) : (s.draw ox oy sp).fault = s.fault := rfl
@[simp] theorem draw_params (ox oy : Nat) (sp : List Byte) : (s.draw ox oy sp).params = s.params := rfl
@[simp] theorem draw_hostOps (ox oy : Nat) (sp : List Byte) : (s.draw ox oy sp).hostOps = s.hostOps := rfl
@[simp] theorem draw_rand (ox oy : Nat) (sp : List Byte) : (s.draw ox oy sp).rand = s.rand := rfl
@[simp] theorem draw_status (ox oy : Nat) (sp : List Byte) : (s.draw ox oy sp).status = s.status := rfl
@[simp] theorem draw_events (ox oy : Nat) (sp : List Byte) : (s.draw ox oy sp).events = s.events := rfl
@[simp] theorem draw_draws (ox oy : Nat) (sp : List Byte) : (s.draw ox oy sp).draws = s.draws := rfl

/-! ### sample -/

@[simp] theorem sample_mem (keys : Vector Bool 16) : (s.sample keys).mem = s.mem := rfl
@[simp] theorem sample_v (keys : Vector Bool 16) : (s.sample keys).v = s.v := rfl
@[simp] theorem sample_i (keys : Vector Bool 16) : (s.sample keys).i = s.i := rfl
@[simp] theorem sample_pc (keys : Vector Bool 16) : (s.sample keys).pc = s.pc := rfl
@[simp] theorem sample_sp (keys : Vector Bool 16) : (s.sample keys).sp = s.sp := rfl
@[simp] theorem sample_stack (keys : Vector Bool 16) : (s.sample keys).stack = s.stack := rfl
@[simp] theorem sample_dt (keys : Vector Bool 16) : (s.sample keys).dt = s.dt := rfl
@[simp] theorem sample_st (keys : Vector Bool 16) : (s.sample keys).st = s.st := rfl
@[simp] theorem sample_fb (keys : Vector Bool 16) : (s.sample keys).fb = s.fb := rfl
@[simp] theorem sample_drawFlag (keys : Vector Bool 16) : (s.sample keys).drawFlag = s.drawFlag := rfl
@[simp] theorem sample_keyCur (keys : Vector Bool 16) : (s.sample keys).keyCur = keys := rfl
@[simp] theorem sample_keyPrev (keys : Vector Bool 16) : (s.sample keys).keyPrev = s.keyCur := rfl
@[simp] theorem sample_exec (keys : Vector Bool 16) : (s.sample keys).exec = s.exec := rfl
@[simp] theorem sample_waitReg (keys : Vector Bool 16) : (s.sample keys).waitReg = s.waitReg := rfl
@[simp] theorem sample_fault (keys : Vector Bool 16) : (s.sample keys).fault = s.fault := rfl
@[simp] theorem sample_params (keys : Vector Bool 16) : (s.sample keys).params = s.params := rfl
@[simp] theorem sample_hostOps (keys : Vector Bool 16) : (s.sample keys).hostOps = s.hostOps := rfl
@[simp] theorem sample_rand (keys : Vector Bool 16) : (s.sample keys).rand = s.rand := rfl
@[simp] theorem sample_status (keys : Vector Bool 16) : (s.sample keys).status = s.status := rfl
@[simp] theorem sample_events (keys : Vector Bool 16) : (s.sample keys).events = s.events := rfl
@[simp] theorem sample_draws (keys : Vector Bool 16) : (s.sample keys).draws = s.draws := rfl

/-! ### resolveWait -/

@[simp] theorem resolveWait_mem (k : Key) : (s.resolveWait k).mem = s.mem := rfl
@[simp] theorem resolveWait_v (k : Key) : (s.resolveWait k).v = s.v.set s.waitReg (BitVec.ofNat 8 k.val) := rfl
@[simp] theorem resolveWait_i (k : Key) : (s.resolveWait k).i = s.i := rfl
@[simp] theorem resolveWait_pc (k : Key) : (s.resolveWait k).pc = s.pc := rfl
@[simp] theorem resolveWait_sp (k : Key) : (s.resolveWait k).sp = s.sp := rfl
@[simp] theorem resolveWait_stack (k : Key) : (s.resolveWait k).stack = s.stack := rfl
@[simp] theorem resolveWait_dt (k : Key) : (s.resolveWait k).dt = s.dt := rfl
@[simp] theorem resolveWait_st (k : Key) : (s.resolveWait k).st = s.st := rfl
@[simp] theorem resolveWait_fb (k : Key) : (s.resolveWait k).fb = s.fb := rfl
@[simp] theorem resolveWait_drawFlag (k : Key) : (s.resolveWait k).drawFlag = s.drawFlag := rfl
@[simp] theorem resolveWait_keyCur (k : Key) : (s.resolveWait k).keyCur = s.keyCur := rfl
@[simp] theorem resolveWait_keyPrev (k : Key) : (s.resolveWait k).keyPrev = s.keyPrev := rfl
@[simp] theorem resolveWait_exec (k : Key) : (s.resolveWait k).exec = .running := rfl
@[simp] theorem resolveWait_waitReg (k : Key) : (s.resolveWait k).waitReg = s.waitReg := rfl
@[simp] theorem resolveWait_fault (k : Key) : (s.resolveWait k).fault = s.fault := rfl
@[simp] theorem resolveWait_params (k : Key) : (s.resolveWait k).params = s.params := rfl
@[simp] theorem resolveWait_hostOps (k : Key) : (s.resolveWait k).hostOps = s.hostOps := rfl
@[simp] theorem resolveWait_rand (k : Key) : (s.resolveWait k).rand = s.rand := rfl
@[simp] theorem resolveWait_status (k : Key) : (s.resolveWait k).status = s.status := rfl
@[simp] theorem resolveWait_events (k : Key) : (s.resolveWait k).events = s.events := rfl
@[simp] theorem resolveWait_draws (k : Key) : (s.resolveWait k).draws = s.draws := rfl

/-! ### tick -/

@[simp] theorem tick_mem : (s.tick).mem = s.mem := rfl
@[simp] theorem tick_v : (s.tick).v = s.v := rfl
@[simp] theorem tick_i : (s.tick).i = s.i := rfl
@[simp] theorem tick_pc : (s.tick).pc = s.pc := rfl
@[simp] theorem tick_sp : (s.tick).sp = s.sp := rfl
@[simp] theorem tick_stack : (s.tick).stack = s.stack := rfl
@[simp] theorem tick_dt : (s.tick).dt = countDown s.dt := rfl
@[simp] theorem tick_st : (s.tick).st = countDown s.st := rfl
@[simp] theorem tick_fb : (s.tick).fb = s.fb := rfl
@[simp] theorem tick_drawFlag : (s.tick).drawFlag = s.drawFlag := rfl
@[simp] theorem tick_keyCur : (s.tick).keyCur = s.keyCur := rfl
@[simp] theorem tick_keyPrev : (s.tick).keyPrev = s.keyPrev := rfl
@[simp] theorem tick_exec : (s.tick).exec = s.exec := rfl
@[simp] theorem tick_waitReg : (s.tick).waitReg = s.waitReg := rfl
@[simp] theorem tick_fault : (s.tick).fault = s.fault := rfl
@[simp] theorem tick_params : (s.tick).params = s.params := rfl
@[simp] theorem tick_hostOps : (s.tick).hostOps = s.hostOps := rfl
@[simp] theorem tick_rand : (s.tick).rand = s.rand := rfl
@[simp] theorem tick_status : (s.tick).status = s.status := rfl
@[simp] theorem tick_events : (s.tick).events = if s.st = 1 then s.events ++ [.audioOff] else s.events := rfl
@[simp] theorem tick_draws : (s.tick).draws = s.draws := rfl

/-! ### beginCycle -/

@[simp] theorem beginCycle_mem (keys : Vector Bool 16) (rand : Byte) : (s.beginCycle keys rand).mem = s.mem := rfl
@[simp] theorem beginCycle_v (keys : Vector Bool 16) (rand : Byte) : (s.beginCycle keys rand).v = s.v := rfl
@[simp] theorem beginCycle_i (keys : Vector Bool 16) (rand : Byte) : (s.beginCycle keys rand).i = s.i := rfl
@[simp] theorem beginCycle_pc (keys : Vector Bool 16) (rand : Byte) : (s.beginCycle keys rand).pc = s.pc := rfl
@[simp] theorem beginCycle_sp (keys : Vector Bool 16) (rand : Byte) : (s.beginCycle keys rand).sp = s.sp := rfl
@[simp] theorem beginCycle_stack (keys : Vector Bool 16) (rand : Byte) : (s.beginCycle keys rand).stack = s.stack := rfl
@[simp] theorem beginCycle_dt (keys : Vector Bool 16) (rand : Byte) : (s.beginCycle keys rand).dt = s.dt := rfl
@[simp] theorem beginCycle_st (keys : Vector Bool 16) (rand : Byte) : (s.beginCycle keys rand).st = s.st := rfl
@[simp] theorem beginCycle_fb (keys : Vector Bool 16) (rand : Byte) : (s.beginCycle keys rand).fb = s.fb := rfl
@[simp] theorem beginCycle_drawFlag (keys : Vector Bool 16) (rand : Byte) : (s.beginCycle keys rand).drawFlag = s.drawFlag := rfl
@[simp] theorem beginCycle_keyCur (keys : Vector Bool 16) (rand : Byte) : (s.beginCycle keys rand).keyCur = keys := rfl
@[simp] theorem beginCycle_keyPrev (keys : Vector Bool 16) (rand : Byte) : (s.beginCycle keys rand).keyPrev = s.keyCur := rfl
@[simp] theorem beginCycle_exec (keys : Vector Bool 16) (rand : Byte) : (s.beginCycle keys rand).exec = s.exec := rfl
@[simp] theorem beginCycle_waitReg (keys : Vector Bool 16) (rand : Byte) : (s.beginCycle keys rand).waitReg = s.waitReg := rfl
@[simp] theorem beginCycle_fault (keys : Vector Bool 16) (rand : Byte) : (s.beginCycle keys rand).fault = s.fault := rfl
@[simp] theorem beginCycle_params (keys : Vector Bool 16) (rand : Byte) : (s.beginCycle keys rand).params = s.params := rfl
@[simp] theorem beginCycle_hostOps (keys : Vector Bool 16) (rand : Byte) : (s.beginCycle keys rand).hostOps = s.hostOps := rfl
@[simp] theorem beginCycle_rand (keys : Vector Bool 16) (rand : Byte) : (s.beginCycle keys rand).rand = rand := rfl
@[simp] theorem beginCycle_status (keys : Vector Bool 16) (rand : Byte) : (s.beginCycle keys rand).status = s.status := rfl
@[simp] theorem beginCycle_events (keys : Vector Bool 16) (rand : Byte) : (s.beginCycle keys rand).events = [] := rfl
@[simp] theorem beginCycle_draws (keys : Vector Bool 16) (rand : Byte) : (s.beginCycle keys rand).draws = s.draws := rfl

/-! ### advance -/

@[simp] theorem advance_mem : (s.advance).mem = s.mem := rfl
@[simp] theorem advance_v : (s.advance).v = s.v := rfl
@[simp] theorem advance_i : (s.advance).i = s.i := rfl
@[simp] theorem advance_pc : (s.advance).pc = s.pc + 2 := rfl
@[simp] theorem advance_sp : (s.advance).sp = s.sp := rfl
@[simp] theorem advance_stack : (s.advance).stack = s.stack := rfl
@[simp] theorem advance_dt : (s.advance).dt = s.dt := rfl
@[simp] theorem advance_st : (s.advance).st = s.st := rfl
@[simp] theorem advance_fb : (s.advance).fb = s.fb := rfl
@[simp] theorem advance_drawFlag : (s.advance).drawFlag = s.drawFlag := rfl
@[simp] theorem advance_keyCur : (s.advance).keyCur = s.keyCur := rfl
@[simp] theorem advance_keyPrev : (s.advance).keyPrev = s.keyPrev := rfl
@[simp] theorem advance_exec : (s.advance).exec = s.exec := rfl
@[simp] theorem advance_waitReg : (s.advance).waitReg = s.waitReg := rfl
@[simp] theorem advance_fault : (s.advance).fault = s.fault := rfl
@[simp] theorem advance_params : (s.advance).params = s.params := rfl
@[simp] theorem advance_hostOps : (s.advance).hostOps = s.hostOps := rfl
@[simp] theorem advance_rand : (s.advance).rand = s.rand := rfl
@[simp] theorem advance_status : (s.advance).status = s.status := rfl
@[simp] theorem advance_events : (s.advance).events = s.events := rfl
@[simp] theorem advance_draws : (s.advance).draws = s.draws := rfl

/-! ### abortCycle -/

@[simp] theorem abortCycle_mem : (s.abortCycle).mem = s.mem := rfl
@[simp] theorem abortCycle_v : (s.abortCycle).v = s.v := rfl
@[simp] theorem abortCycle_i : (s.abortCycle).i = s.i := rfl
@[simp] theorem abortCycle_pc : (s.abortCycle).pc = s.pc := rfl
@[simp] theorem abortCycle_sp : (s.abortCycle).sp = s.sp := rfl
@[simp] theorem abortCycle_stack : (s.abortCycle).stack = s.stack := rfl
@[simp] theorem abortCycle_dt : (s.abortCycle).dt = s.dt := rfl
@[simp] theorem abortCycle_st : (s.abortCycle).st = s.st := rfl
@[simp] theorem abortCycle_fb : (s.abortCycle).fb = s.fb := rfl
@[simp] theorem abortCycle_drawFlag : (s.abortCycle).drawFlag = s.drawFlag := rfl
@[simp] theorem abortCycle_keyCur : (s.abortCycle).keyCur = s.keyCur := rfl
@[simp] theorem abortCycle_keyPrev : (s.abortCycle).keyPrev = s.keyPrev := rfl
@[simp] theorem abortCycle_exec : (s.abortCycle).exec = s.exec := rfl
@[simp] theorem abortCycle_waitReg : (s.abortCycle).waitReg = s.waitReg := rfl
@[simp] theorem abortCycle_fault : (s.abortCycle).fault = s.fault := rfl
@[simp] theorem abortCycle_params : (s.abortCycle).params = s.params := rfl
@[simp] theorem abortCycle_hostOps : (s.abortCycle).hostOps = s.hostOps := rfl
@[simp] theorem abortCycle_rand : (s.abortCycle).rand = s.rand := rfl
@[simp] theorem abortCycle_status : (s.abortCycle).status = .err s.fault := rfl
@[simp] theorem abortCycle_events : (s.abortCycle).events = [] := rfl
@[simp] theorem abortCycle_draws : (s.abortCycle).draws = s.draws := rfl

/-! ### ackDraw -/

@[simp] theorem ackDraw_mem : (s.ackDraw).mem = s.mem := rfl
@[simp] theorem ackDraw_v : (s.ackDraw).v = s.v := rfl
@[simp] theorem ackDraw_i : (s.ackDraw).i = s.i := rfl
@[simp] theorem ackDraw_pc : (s.ackDraw).pc = s.pc := rfl
@[simp] theorem ackDraw_sp : (s.ackDraw).sp = s.sp := rfl
@[simp] theorem ackDraw_stack : (s.ackDraw).stack = s.stack := rfl
@[simp] theorem ackDraw_dt : (s.ackDraw).dt = s.dt := rfl
@[simp] theorem ackDraw_st : (s.ackDraw).st = s.st := rfl
@[simp] theorem ackDraw_fb : (s.ackDraw).fb = s.fb := rfl
@[simp] theorem ackDraw_drawFlag : (s.ackDraw).drawFlag = false := rfl
@[simp] theorem ackDraw_keyCur : (s.ackDraw).keyCur = s.keyCur := rfl
@[simp] theorem ackDraw_keyPrev : (s.ackDraw).keyPrev = s.keyPrev := rfl
@[simp] theorem ackDraw_exec : (s.ackDraw).exec = s.exec := rfl
@[simp] theorem ackDraw_waitReg : (s.ackDraw).waitReg = s.waitReg := rfl
@[simp] theorem ackDraw_fault : (s.ackDraw).fault = s.fault := rfl
@[simp] theorem ackDraw_params : (s.ackDraw).params = s.params := rfl
@[simp] theorem ackDraw_hostOps : (s.ackDraw).hostOps = s.hostOps := rfl
@[simp] theorem ackDraw_rand : (s.ackDraw).rand = s.rand := rfl
@[simp] theorem ackDraw_status : (s.ackDraw).status = s.status := rfl
@[simp] theorem ackDraw_events : (s.ackDraw).events = s.events := rfl
@[simp] theorem ackDraw_draws : (s.ackDraw).draws = s.draws := rfl

end

end Sys2Proof.Machine
end

