-- ==== Sys2Proof/Laws/Memory.lean ====
section
/-! SUPPORT. Memory: read after write, the canonical form, and ranges of bytes (20_memory.md R83 to R85). -/

namespace Sys2Proof.Machine

variable {font : Font} {m : Memory} {a b lo lo' n : Nat} {d v : Byte} {vs : List Byte}

/-- A smaller lower bound is weaker. -/
theorem Memory.wfFrom_mono (h : Memory.wfFrom font lo' m = true) (hle : lo ≤ lo') :
    Memory.wfFrom font lo m = true := by
  cases m with
  | nil => rfl
  | cons c m =>
    simp only [Memory.wfFrom, Bool.and_eq_true, decide_eq_true_eq] at h ⊢
    exact ⟨⟨⟨by omega, h.1.1.2⟩, h.1.2⟩, h.2⟩

/-- A canonical list holds nothing below its lower bound. -/
theorem Memory.lookup_below (h : Memory.wfFrom font lo m = true) (ha : a < lo) : Memory.lookup m a = none := by
  induction m generalizing lo with
  | nil => rfl
  | cons c m ih =>
    obtain ⟨b, w⟩ := c
    simp only [Memory.wfFrom, Bool.and_eq_true, decide_eq_true_eq] at h
    have hne : b ≠ a := by omega
    simp only [Memory.lookup, if_neg hne]
    exact ih h.2 (by omega)

/-- A put leaves every other address alone. -/
theorem Memory.lookup_put_other (hne : b ≠ a) : Memory.lookup (Memory.put d m a v) b = Memory.lookup m b := by
  induction m with
  | nil => simp only [Memory.put]; split <;> simp [Memory.lookup, hne.symm]
  | cons c m ih =>
    obtain ⟨e, w⟩ := c
    simp only [Memory.put]
    split
    · split <;> simp [Memory.lookup, hne.symm]
    · split
      · subst e; split <;> simp [Memory.lookup, hne.symm]
      · simp only [Memory.lookup, ih]

/-- A put is seen at its own address. -/
theorem Memory.lookup_put_same (h : Memory.wfFrom font lo m = true) :
    (Memory.lookup (Memory.put d m a v) a).getD d = v := by
  induction m generalizing lo with
  | nil => simp only [Memory.put]; split <;> simp_all [Memory.lookup]
  | cons c m ih =>
    obtain ⟨e, w⟩ := c
    simp only [Memory.wfFrom, Bool.and_eq_true, decide_eq_true_eq] at h
    have hm := h.2
    simp only [Memory.put]
    split
    · rename_i hlt
      have hnone : Memory.lookup m a = none := Memory.lookup_below hm (by omega)
      have hne : e ≠ a := by omega
      split <;> simp_all [Memory.lookup]
    · split
      · subst e
        have hnone : Memory.lookup m a = none := Memory.lookup_below hm (by omega)
        split <;> simp_all [Memory.lookup]
      · rename_i hlt hne
        have hne' : e ≠ a := fun he => hne he.symm
        simp only [Memory.lookup, if_neg hne']
        exact ih hm

/-- A put keeps the canonical form. -/
theorem Memory.wfFrom_put (h : Memory.wfFrom font lo m = true) (hlo : lo ≤ a) (ha : a < Config.memSize) :
    Memory.wfFrom font lo (Memory.put (fillByte font a) m a v) = true := by
  induction m generalizing lo with
  | nil => simp only [Memory.put]; split <;> simp_all [Memory.wfFrom]
  | cons c m ih =>
    obtain ⟨e, w⟩ := c
    simp only [Memory.wfFrom, Bool.and_eq_true, decide_eq_true_eq] at h
    simp only [Memory.put]
    split
    · split <;> simp_all [Memory.wfFrom]
    · split
      · subst e
        split
        · exact Memory.wfFrom_mono h.2 (by omega)
        · simp_all [Memory.wfFrom]
      · simp only [Memory.wfFrom, Bool.and_eq_true, decide_eq_true_eq]
        exact ⟨h.1, ih h.2 (by omega)⟩

/-- Read after write, the same address (R85). -/
theorem Memory.read_write_same (h : Memory.wf font m = true) :
    Memory.read font (Memory.write font m a v) a = v := Memory.lookup_put_same h

/-- Read after write, another address (R85: "and changes nothing else"). -/
theorem Memory.read_write_other (hne : b ≠ a) :
    Memory.read font (Memory.write font m a v) b = Memory.read font m b := by
  simp only [Memory.read, Memory.write, Memory.lookup_put_other hne]

/-- A write inside the address space keeps the canonical form. -/
theorem Memory.wf_write (h : Memory.wf font m = true) (ha : a < Config.memSize) :
    Memory.wf font (Memory.write font m a v) = true := Memory.wfFrom_put h (Nat.zero_le a) ha

/-- Writing consecutive bytes inside the address space keeps the canonical form. -/
theorem Memory.wf_writeAll (h : Memory.wf font m = true) (ha : a + vs.length ≤ Config.memSize) :
    Memory.wf font (Memory.writeAll font m a vs) = true := by
  induction vs generalizing m a with
  | nil => exact h
  | cons v vs ih =>
    simp only [List.length_cons] at ha
    exact ih (Memory.wf_write h (by omega)) (by omega)

/-- Bytes outside the written range read as before. -/
theorem Memory.read_writeAll_outside (hb : b < a ∨ a + vs.length ≤ b) :
    Memory.read font (Memory.writeAll font m a vs) b = Memory.read font m b := by
  induction vs generalizing m a with
  | nil => rfl
  | cons v vs ih =>
    simp only [List.length_cons] at hb
    rw [Memory.writeAll, ih (by omega), Memory.read_write_other (by omega)]

/-- Bytes inside the written range read as written (R85). -/
theorem Memory.read_writeAll_inside (h : Memory.wf font m = true) (ha : a + vs.length ≤ Config.memSize)
    (hk : n < vs.length) : Memory.read font (Memory.writeAll font m a vs) (a + n) = vs[n] := by
  induction vs generalizing m a n with
  | nil => exact absurd hk (Nat.not_lt_zero n)
  | cons v vs ih =>
    simp only [List.length_cons] at ha hk
    cases n with
    | zero =>
      rw [Memory.writeAll, Memory.read_writeAll_outside (by omega)]
      exact Memory.read_write_same h
    | succ n =>
      have hs : a + (n + 1) = (a + 1) + n := by omega
      rw [Memory.writeAll, hs]
      exact ih (Memory.wf_write h (by omega)) (by omega) (by omega)

/-- `MemRead(a, n)` returns `n` bytes (R84). -/
@[simp] theorem readBytes_length (s : State) (a n : Nat) : (s.readBytes a n).length = n := by
  induction n generalizing a with
  | zero => rfl
  | succ n ih => simp only [State.readBytes, List.length_cons, ih]

/-- Byte `k` of `MemRead(a, n)` is `Mem[a+k]` (R84). -/
theorem readBytes_getElem (s : State) (a n k : Nat) (hk : k < (s.readBytes a n).length) :
    (s.readBytes a n)[k] = s.readByte (a + k) := by
  induction n generalizing a k with
  | zero => exact absurd hk (Nat.not_lt_zero k)
  | succ n ih =>
    cases k with
    | zero => rfl
    | succ k =>
      simp only [State.readBytes, List.getElem_cons_succ, ih]
      congr 1
      omega

/-- What `InBounds` says (R83). -/
theorem inBounds_iff (a n : Nat) : inBounds a n = true ↔ n = 0 ∨ a + n ≤ Config.memSize := by
  simp only [inBounds, Config.memSize, Bool.or_eq_true, decide_eq_true_eq]
  omega

end Sys2Proof.Machine
end

