-- ==== Sys2Proof/Laws/Ops.lean ====
section
/-! SUPPORT. What each shared operation can do, said once: registers, operand reads, stores, the stack, `WriteRF`,
the key number. -/

namespace Sys2Proof.Machine

variable (s : State)

/-! ## Registers -/

@[simp] theorem reg_setReg_same (x : Reg) (b : Byte) : (s.setReg x b).reg x = b := by
  simp [State.reg, State.setReg]

theorem reg_setReg_other {x y : Reg} (b : Byte) (h : y ≠ x) : (s.setReg x b).reg y = s.reg y := by
  have hv : ¬(x.val = y.val) := fun he => h (Fin.ext he.symm)
  simp [State.reg, State.setReg, hv]

/-- After a block load, register `j` holds byte `j - k` when there is one, and is unchanged otherwise. -/
theorem loadRegsFrom_getElem (k : Nat) (bytes : List Byte) (v : Vector Byte 16) (j : Nat) (hj : j < 16) :
    (loadRegsFrom k bytes v)[j] = if h : k ≤ j ∧ j < k + bytes.length then bytes[j - k] else v[j] := by
  induction bytes generalizing k v with
  | nil => simp [loadRegsFrom]
  | cons b bs ih =>
    rw [loadRegsFrom, ih]
    by_cases h1 : k + 1 ≤ j ∧ j < k + 1 + bs.length
    · have h2 : k ≤ j ∧ j < k + (b :: bs).length := by simp only [List.length_cons]; omega
      rw [dif_pos h1, dif_pos h2, List.getElem_cons, dif_neg (by omega)]
      congr 1
    · rw [dif_neg h1]
      by_cases hk : k = j
      · subst hk
        simp
      · have h2 : ¬(k ≤ j ∧ j < k + (b :: bs).length) := by simp only [List.length_cons]; omega
        rw [dif_neg h2]
        simp [hk]

@[simp] theorem regsThrough_length (x : Reg) : (s.regsThrough x).length = x.val + 1 := by
  simp only [State.regsThrough, List.length_take, Vector.length_toList]
  omega

theorem regsThrough_getElem (x : Reg) (k : Nat) (h : k < (s.regsThrough x).length) :
    (s.regsThrough x)[k] = s.reg ⟨k, by rw [regsThrough_length] at h; omega⟩ := by
  simp [State.regsThrough, State.reg]

/-! ## Bytes at `I` -/

/-- The read range: all of it in memory, or nothing read (R83, R84). -/
theorem bytesAtI_cases (n : Nat) :
    (inBounds s.i.toNat n = true ∧ s.bytesAtI n = some (s.readBytes s.i.toNat n)) ∨
    (inBounds s.i.toNat n = false ∧ s.bytesAtI n = none) := by
  cases h : inBounds s.i.toNat n <;> simp [State.bytesAtI, h]

/-- The stored range: all of it in memory, or nothing stored (R83, R85). -/
theorem storeAtI_cases (vs : List Byte) :
    (inBounds s.i.toNat vs.length = true ∧ s.storeAtI vs = some (s.writeBytes s.i.toNat vs)) ∨
    (inBounds s.i.toNat vs.length = false ∧ s.storeAtI vs = none) := by
  cases h : inBounds s.i.toNat vs.length <;> simp [State.storeAtI, h]

/-- A state that differs in `mem` only by a write reads accordingly: outside the range as before. -/
theorem readByte_writeBytes_outside (a b : Nat) (vs : List Byte) (h : b < a ∨ a + vs.length ≤ b) :
    (s.writeBytes a vs).readByte b = s.readByte b := Memory.read_writeAll_outside h

/-- Inside the range as written, in a canonical memory. -/
theorem readByte_writeBytes_inside (a k : Nat) (vs : List Byte) (hwf : Memory.wf s.params.font s.mem = true)
    (ha : a + vs.length ≤ Config.memSize) (hk : k < vs.length) :
    (s.writeBytes a vs).readByte (a + k) = vs[k] := Memory.read_writeAll_inside hwf ha hk

/-- A write inside the address space keeps the canonical form. -/
theorem wf_writeBytes (a : Nat) (vs : List Byte) (hwf : Memory.wf s.params.font s.mem = true)
    (ha : a + vs.length ≤ Config.memSize) :
    Memory.wf (s.writeBytes a vs).params.font (s.writeBytes a vs).mem = true := Memory.wf_writeAll hwf ha

/-! ## Stack (10_state.md R38) -/

/-- A push: one slot and `SP` change, or `SP = 16` and there is no push. -/
theorem push_cases (w : Word) :
    (∃ h : s.sp.val < 16, s.push w = some { s with stack := s.stack.set s.sp.val w, sp := ⟨s.sp.val + 1, by omega⟩ }) ∨
    (s.sp.val = 16 ∧ s.push w = none) := by
  by_cases h : s.sp.val < 16
  · exact .inl ⟨h, by simp [State.push, h]⟩
  · exact .inr ⟨by omega, by simp [State.push, h]⟩

/-- A pop: the slot below `SP` and `SP - 1`, or `SP = 0` and there is no pop. -/
theorem pop_cases :
    (∃ j : Fin 16, s.sp.val = j.val + 1 ∧ s.pop = some (s.stack[j], { s with sp := ⟨j.val, by omega⟩ })) ∨
    (s.sp.val = 0 ∧ s.pop = none) := by
  by_cases h : 0 < s.sp.val
  · refine .inl ⟨⟨s.sp.val - 1, by omega⟩, by simp only; omega, ?_⟩
    simp [State.pop, h]
  · exact .inr ⟨by omega, by simp [State.pop, h]⟩

/-! ## Keys -/

/-- The key operand: the number in the register, or none above `0xF` (R363). -/
theorem keyNumber_cases (x : Reg) :
    (∃ k : Key, (s.reg x).toNat = k.val ∧ s.keyNumber x = some k) ∨
    (16 ≤ (s.reg x).toNat ∧ s.keyNumber x = none) := by
  by_cases h : (s.reg x).toNat < 16
  · exact .inl ⟨⟨_, h⟩, rfl, by simp [State.keyNumber, h]⟩
  · exact .inr ⟨by omega, by simp [State.keyNumber, h]⟩

/-! ## `WriteRF` (42_alu.md R231) -/

/-- `WriteRF` changes registers and, for a drawn `VF`, the draw counter. -/
theorem writeRF_frame (x : Reg) (r : Byte) (f : Bool) :
    s.writeRF x r f = { s with v := (s.writeRF x r f).v, draws := (s.writeRF x r f).draws } := by
  unfold State.writeRF
  split
  · split <;> rfl
  · rfl

theorem writeRF_result {x : Reg} (r : Byte) (f : Bool) (hx : x ≠ regF) : (s.writeRF x r f).reg x = r := by
  rw [State.writeRF, if_neg hx, reg_setReg_other _ _ hx, reg_setReg_same]

theorem writeRF_flag {x : Reg} (r : Byte) (f : Bool) (hx : x ≠ regF) :
    (s.writeRF x r f).reg regF = flagByte f := by
  rw [State.writeRF, if_neg hx, reg_setReg_same]

theorem writeRF_other {x y : Reg} (r : Byte) (f : Bool) (hx : y ≠ x) (hf : y ≠ regF) :
    (s.writeRF x r f).reg y = s.reg y := by
  unfold State.writeRF
  split
  · split
    · exact reg_setReg_other s _ hf
    · exact reg_setReg_other s _ hf
    · exact reg_setReg_other s _ hf
  · rw [reg_setReg_other _ _ hf, reg_setReg_other _ _ hx]

theorem writeRF_draws {x : Reg} (r : Byte) (f : Bool) (h : x ≠ regF ∨ s.params.flagOrder ≠ .anyValue) :
    (s.writeRF x r f).draws = s.draws := by
  unfold State.writeRF
  split
  · split <;> simp_all
  · rfl

end Sys2Proof.Machine
end

