-- ==== Sys2Proof/Laws/Display.lean ====
section
/-! SUPPORT. Cells of the framebuffer (44_display.md R320, R323). -/

namespace Sys2Proof.Machine

/-- Coordinates wrap (R320). -/
theorem cell_mod (fb : Frame) (x y : Nat) : Frame.cell fb (x % 64) (y % 32) = Frame.cell fb x y := by
  simp [Frame.cell]

/-- A toggle inverts the cell it names. -/
theorem cell_toggle_same (fb : Frame) (x y : Nat) : Frame.cell (Frame.toggle fb x y) x y = !Frame.cell fb x y := by
  simp [Frame.cell, Frame.toggle]

/-- A toggle leaves every other cell alone. -/
theorem cell_toggle_other (fb : Frame) (x y x' y' : Nat) (h : x' % 64 ≠ x % 64 ∨ y' % 32 ≠ y % 32) :
    Frame.cell (Frame.toggle fb x y) x' y' = Frame.cell fb x' y' := by
  unfold Frame.cell Frame.toggle
  by_cases hy : y' % 32 = y % 32
  · have hx : x % 64 ≠ x' % 64 := by omega
    simp [hy, hx]
  · have hy' : y % 32 ≠ y' % 32 := by omega
    simp [hy']

/-- Every cell of a blank grid is dark (R321). -/
theorem cell_blank (x y : Nat) : Frame.cell Frame.blank x y = false := by
  simp [Frame.cell, Frame.blank]

/-- Two grids with the same cells are the same grid. -/
theorem frame_ext {f g : Frame} (h : ∀ x y, x < 64 → y < 32 → Frame.cell f x y = Frame.cell g x y) : f = g := by
  apply Vector.ext
  intro y hy
  apply Vector.ext
  intro x hx
  have := h x y hx hy
  simpa [Frame.cell, Nat.mod_eq_of_lt hx, Nat.mod_eq_of_lt hy] using this

end Sys2Proof.Machine
end

