-- ==== Sys2Proof/Laws/Cycle.lean ====
section
/-! SUPPORT. What an instruction and a step can do, said once (40_cycle.md R152, R153, R158). -/

namespace Sys2Proof.Machine

/-- What no instruction changes: the parameters, the host's side, the input latch. -/
structure Keeps (s s' : State) : Prop where
  params  : s'.params = s.params
  hostOps : s'.hostOps = s.hostOps
  rand    : s'.rand = s.rand
  status  : s'.status = s.status
  keyCur  : s'.keyCur = s.keyCur
  keyPrev : s'.keyPrev = s.keyPrev

theorem Keeps.refl (s : State) : Keeps s s := ⟨rfl, rfl, rfl, rfl, rfl, rfl⟩

theorem writeRF_keeps (s : State) (x : Reg) (r : Byte) (f : Bool) : Keeps s (s.writeRF x r f) := by
  rw [writeRF_frame]; exact ⟨rfl, rfl, rfl, rfl, rfl, rfl⟩

theorem writeRF_exec (s : State) (x : Reg) (r : Byte) (f : Bool) : (s.writeRF x r f).exec = s.exec := by
  rw [writeRF_frame]

theorem writeRF_fault (s : State) (x : Reg) (r : Byte) (f : Bool) : (s.writeRF x r f).fault = s.fault := by
  rw [writeRF_frame]

/-- The two shapes of what an instruction answers: it enters a fault and changes nothing else (R425, R426), or it
keeps `Fault`, keeps `Exec` unless it starts a key wait, and keeps what no instruction changes (R158). -/
def ExecShape (i : Instr) (s : State) (o : Host.Outcome State Fault Refusal) : Prop :=
  (∃ r : ErrorRecord, o = .next (s.enterFault r) ∧ r.opcode = some (encode i) ∧ r.pc = s.fetchAddr) ∨
  (∃ s', o = .next s' ∧ s'.fault = s.fault ∧ Keeps s s' ∧
    (s'.exec = s.exec ∨ (s'.exec = .waitingForKey ∧ ∃ x, i = .ldVxK x)))

theorem ExecShape.raised {i : Instr} {s : State} (kind : ErrorKind) (addr : Option Nat) :
    ExecShape i s (raise kind i addr s) := .inl ⟨⟨kind, _, _, addr⟩, rfl, rfl, rfl⟩

theorem ExecShape.plain {i : Instr} {s s' : State} (hf : s'.fault = s.fault) (hk : Keeps s s')
    (he : s'.exec = s.exec) : ExecShape i s (.next s') := .inr ⟨s', rfl, hf, hk, .inl he⟩

theorem ExecShape.flags {i : Instr} {s : State} (x : Reg) (r : Byte) (f : Bool) :
    ExecShape i s (.next (s.writeRF x r f)) :=
  .plain (writeRF_fault ..) (writeRF_keeps ..) (writeRF_exec ..)

/-- Every instruction answers a next state of one of the two shapes. -/
theorem exec_shape (i : Instr) (s : State) : ExecShape i s (exec i s) := by
  cases i with
  | ret =>
    rcases pop_cases s with ⟨j, _, h⟩ | ⟨_, h⟩ <;> simp only [exec, execRet, h]
    · exact .plain rfl ⟨rfl, rfl, rfl, rfl, rfl, rfl⟩ rfl
    · exact .raised _ _
  | call nnn =>
    rcases push_cases s s.pc with ⟨_, h⟩ | ⟨_, h⟩ <;> simp only [exec, execCall, h]
    · exact .plain rfl ⟨rfl, rfl, rfl, rfl, rfl, rfl⟩ rfl
    · exact .raised _ _
  | drw x y n =>
    rcases bytesAtI_cases s n.toNat with ⟨_, h⟩ | ⟨_, h⟩ <;> simp only [exec, execDrw, h]
    · exact .plain rfl ⟨rfl, rfl, rfl, rfl, rfl, rfl⟩ rfl
    · exact .raised _ _
  | skp x =>
    rcases keyNumber_cases s x with ⟨k, _, h⟩ | ⟨_, h⟩ <;> simp only [exec, execSkp, h]
    · exact .plain rfl ⟨rfl, rfl, rfl, rfl, rfl, rfl⟩ rfl
    · exact .raised _ _
  | sknp x =>
    rcases keyNumber_cases s x with ⟨k, _, h⟩ | ⟨_, h⟩ <;> simp only [exec, execSknp, h]
    · exact .plain rfl ⟨rfl, rfl, rfl, rfl, rfl, rfl⟩ rfl
    · exact .raised _ _
  | ldBVx x =>
    rcases storeAtI_cases s (bcdDigits (s.reg x)) with ⟨_, h⟩ | ⟨_, h⟩ <;> simp only [exec, execLdBVx, h]
    · exact .plain rfl ⟨rfl, rfl, rfl, rfl, rfl, rfl⟩ rfl
    · exact .raised _ _
  | ldMemVx x =>
    rcases storeAtI_cases s (s.regsThrough x) with ⟨_, h⟩ | ⟨_, h⟩ <;> simp only [exec, execLdMemVx, h]
    · exact .plain rfl ⟨rfl, rfl, rfl, rfl, rfl, rfl⟩ rfl
    · exact .raised _ _
  | ldVxMem x =>
    rcases bytesAtI_cases s (x.val + 1) with ⟨_, h⟩ | ⟨_, h⟩ <;> simp only [exec, execLdVxMem, h]
    · exact .plain rfl ⟨rfl, rfl, rfl, rfl, rfl, rfl⟩ rfl
    · exact .raised _ _
  | addReg | sub | shr | subn | shl => exact .flags ..
  | ldVxK x => exact .inr ⟨_, rfl, rfl, ⟨rfl, rfl, rfl, rfl, rfl, rfl⟩, .inr ⟨rfl, x, rfl⟩⟩
  | cls | jp | seImm | sneImm | seReg | ldImm | addImm | ldReg | orReg | andReg | xorReg | sneReg | ldI | jpV0
  | rnd | ldVxDt | ldDtVx | ldStVx | addIVx | ldFVx =>
    exact .plain rfl ⟨rfl, rfl, rfl, rfl, rfl, rfl⟩ rfl

/-! ## The ends of a cycle -/

/-- The end of a cycle without a fatal error changes the timers, the events and the status only (R159). -/
theorem endCycle_frame (s : State) (status : Status) :
    s.endCycle status =
      { s with dt := (s.endCycle status).dt, st := (s.endCycle status).st, events := (s.endCycle status).events,
               status := status } := by
  unfold State.endCycle
  split <;> rfl

theorem endCycle_coupled (s : State) (status : Status) (h : s.params.timerCoupling = .coupled) :
    s.endCycle status = { s.tick with status := status } := by
  simp only [State.endCycle, h]

theorem endCycle_decoupled (s : State) (status : Status) (h : s.params.timerCoupling = .decoupled) :
    s.endCycle status = { s with status := status } := by
  simp only [State.endCycle, h]

theorem afterExec_faulted (s : State) (h : s.exec = .faulted) : s.afterExec = s.abortCycle := by
  simp only [State.afterExec, h]

theorem afterExec_live (s : State) (h : s.exec ≠ .faulted) : s.afterExec = s.endCycle .ok := by
  unfold State.afterExec
  split
  · contradiction
  · rfl

/-! ## The step -/

/-- One step is the operation at the head of the queue, or a cycle with free inputs (R160). -/
theorem step_cases (s : State) :
    (∃ op ops, s.hostOps = op :: ops ∧ step s = State.runHostOp { s with hostOps := ops } op) ∨
    (s.hostOps = [] ∧ step s =
      State.cycle { s with draws := s.draws + 1 } (Config.freeKeys s.draws) (Config.freeRand s.draws)) := by
  unfold step State.hostStep
  cases h : s.hostOps with
  | nil => exact .inr ⟨rfl, rfl⟩
  | cons op ops => exact .inl ⟨op, ops, rfl, rfl⟩

/-- A cycle in `Running` ends in a failed fetch, an unknown opcode or an instruction (R153, R430). -/
theorem runCycle_cases (s : State) (keys : Vector Bool 16) (rand : Byte) :
    (fetchOK s.pc = false ∧
      s.runCycle keys rand = .next ((s.beginCycle keys rand).enterFault (invalidPCRecord s.pc)).abortCycle) ∨
    (fetchOK s.pc = true ∧ s.runCycle keys rand = (s.beginCycle keys rand).dispatchWord (s.fetchWord s.pc)) := by
  cases h : fetchOK s.pc
  · exact .inl ⟨rfl, by simp only [State.runCycle, beginCycle_pc, h]; rfl⟩
  · exact .inr ⟨rfl, by simp only [State.runCycle, beginCycle_pc, h]; rfl⟩

theorem cycle_running {s : State} (h : s.exec = .running) (keys : Vector Bool 16) (rand : Byte) :
    s.cycle keys rand = s.runCycle keys rand := by
  unfold State.cycle
  rw [h]

theorem cycle_waiting {s : State} (h : s.exec = .waitingForKey) (keys : Vector Bool 16) (rand : Byte) :
    s.cycle keys rand = .next (s.waitCycle keys) := by
  unfold State.cycle
  rw [h]

theorem cycle_faulted {s : State} (h : s.exec = .faulted) (keys : Vector Bool 16) (rand : Byte) :
    s.cycle keys rand = .next s.abortCycle := by
  unfold State.cycle
  rw [h]

/-- A step that takes a cycle is that cycle, in a state that differs in the pending operations and the draw counter. -/
theorem step_of_takesCycle {s s0 : State} {keys : Vector Bool 16} {rand : Byte} (h : s.TakesCycle keys rand s0) :
    step s = s0.cycle keys rand ∧ ∃ ops n, s0 = { s with hostOps := ops, draws := n } := by
  rcases h with ⟨ops, h1, rfl⟩ | ⟨h1, rfl, rfl, rfl⟩
  · exact ⟨by simp only [step, State.hostStep, h1]; rfl, ops, s.draws, rfl⟩
  · exact ⟨by simp only [step, State.hostStep, h1], s.hostOps, s.draws + 1, rfl⟩

/-- After a fetched word that decodes, the cycle is the instruction and what follows dispatch. -/
theorem dispatchWord_of_decode {s t : State} {op : Word} {i : Instr} (hd : decode op = .ok i)
    (ht : exec i s.advance = .next t) : s.dispatchWord op = .next t.afterExec := by
  unfold State.dispatchWord
  rw [hd]
  simp only [ht]

/-- After an unknown word, under `Strict` (60_exceptions.md R421). -/
theorem dispatchWord_strict {s : State} {op : Word} {e : DecodeError} (hd : decode op = .error e)
    (hp : s.params.unknownOpcode = .strict) :
    s.dispatchWord op = .next (s.advance.enterFault (unknownRecord op s.pc)).abortCycle := by
  unfold State.dispatchWord
  rw [hd]
  simp only [hp]

/-- After an unknown word, under `Lenient` (60_exceptions.md R431). -/
theorem dispatchWord_lenient {s : State} {op : Word} {e : DecodeError} (hd : decode op = .error e)
    (hp : s.params.unknownOpcode = .lenient) :
    s.dispatchWord op = .next (s.advance.endCycle (.warn (unknownRecord op s.pc))) := by
  unfold State.dispatchWord
  rw [hd]
  simp only [hp]

/-- The three ends of a `Running` cycle's dispatch (60_exceptions.md R430). -/
theorem dispatchWord_cases (s : State) (op : Word) :
    (∃ i t, decode op = .ok i ∧ exec i s.advance = .next t ∧ s.dispatchWord op = .next t.afterExec) ∨
    (∃ e, decode op = .error e ∧ s.params.unknownOpcode = .strict ∧
      s.dispatchWord op = .next (s.advance.enterFault (unknownRecord op s.pc)).abortCycle) ∨
    (∃ e, decode op = .error e ∧ s.params.unknownOpcode = .lenient ∧
      s.dispatchWord op = .next (s.advance.endCycle (.warn (unknownRecord op s.pc)))) := by
  cases hd : decode op with
  | ok i =>
    rcases exec_shape i s.advance with ⟨r, h, _⟩ | ⟨t, h, _⟩
    · exact .inl ⟨i, _, rfl, h, dispatchWord_of_decode hd h⟩
    · exact .inl ⟨i, t, rfl, h, dispatchWord_of_decode hd h⟩
  | error e =>
    cases hp : s.params.unknownOpcode with
    | strict => exact .inr (.inl ⟨e, rfl, rfl, dispatchWord_strict hd hp⟩)
    | lenient => exact .inr (.inr ⟨e, rfl, rfl, dispatchWord_lenient hd hp⟩)

end Sys2Proof.Machine
end

