-- ==== Sys2Proof/Laws/Decode.lean ====
section
/-! SUPPORT. The fields of a packed opcode, the packing of an opcode's fields, and the two bytes of an opcode
(30_encoding.md R111, R112; 20_memory.md R86). -/

namespace Sys2Proof

variable (t f : Nibble) (x y : Reg) (b : Byte) (nnn : Addr12) (op : Word)

@[simp] theorem regBits_toNat : (regBits x).toNat = x.val := rfl

theorem packA_toNat : (packA t nnn).toNat = t.toNat * 4096 + nnn.toNat := by
  have h : (packA t nnn).toNat = (t ++ nnn : BitVec (4 + 12)).toNat := rfl
  rw [h, BitVec.toNat_append, ← Nat.shiftLeft_add_eq_or_of_lt nnn.isLt, Nat.shiftLeft_eq]

theorem packXB_toNat : (packXB t x b).toNat = t.toNat * 4096 + x.val * 256 + b.toNat := by
  have h : (packXB t x b).toNat = (t ++ regBits x ++ b : BitVec (4 + 4 + 8)).toNat := rfl
  rw [h, BitVec.toNat_append, BitVec.toNat_append, ← Nat.shiftLeft_add_eq_or_of_lt b.isLt,
    ← Nat.shiftLeft_add_eq_or_of_lt (regBits x).isLt]
  simp only [Nat.shiftLeft_eq, regBits_toNat]
  omega

theorem packXY_toNat : (packXY t x y f).toNat = t.toNat * 4096 + x.val * 256 + y.val * 16 + f.toNat := by
  have h : (packXY t x y f).toNat = (t ++ regBits x ++ regBits y ++ f : BitVec (4 + 4 + 4 + 4)).toNat := rfl
  rw [h, BitVec.toNat_append, BitVec.toNat_append, BitVec.toNat_append, ← Nat.shiftLeft_add_eq_or_of_lt f.isLt,
    ← Nat.shiftLeft_add_eq_or_of_lt (regBits x).isLt, ← Nat.shiftLeft_add_eq_or_of_lt (regBits y).isLt]
  simp only [Nat.shiftLeft_eq, regBits_toNat]
  omega

theorem fieldT_toNat : (fieldT op).toNat = op.toNat / 4096 % 16 := by
  simp only [fieldT, BitVec.extractLsb'_toNat, Nat.shiftRight_eq_div_pow]

theorem fieldX_val : (fieldX op).val = op.toNat / 256 % 16 := by
  simp only [fieldX, BitVec.val_toFin, BitVec.extractLsb'_toNat, Nat.shiftRight_eq_div_pow]

theorem fieldY_val : (fieldY op).val = op.toNat / 16 % 16 := by
  simp only [fieldY, BitVec.val_toFin, BitVec.extractLsb'_toNat, Nat.shiftRight_eq_div_pow]

theorem fieldN_toNat : (fieldN op).toNat = op.toNat % 16 := by
  simp only [fieldN, BitVec.extractLsb'_toNat, Nat.shiftRight_zero]

theorem fieldNN_toNat : (fieldNN op).toNat = op.toNat % 256 := by
  simp only [fieldNN, BitVec.extractLsb'_toNat, Nat.shiftRight_zero]

theorem fieldNNN_toNat : (fieldNNN op).toNat = op.toNat % 4096 := by
  simp only [fieldNNN, BitVec.extractLsb'_toNat, Nat.shiftRight_zero]

@[simp] theorem fieldT_packA : fieldT (packA t nnn) = t := by
  apply BitVec.eq_of_toNat_eq; rw [fieldT_toNat, packA_toNat]; omega

@[simp] theorem fieldNNN_packA : fieldNNN (packA t nnn) = nnn := by
  apply BitVec.eq_of_toNat_eq; rw [fieldNNN_toNat, packA_toNat]; omega

@[simp] theorem fieldT_packXB : fieldT (packXB t x b) = t := by
  apply BitVec.eq_of_toNat_eq; rw [fieldT_toNat, packXB_toNat]; omega

@[simp] theorem fieldX_packXB : fieldX (packXB t x b) = x := by
  apply Fin.ext; rw [fieldX_val, packXB_toNat]; omega

@[simp] theorem fieldNN_packXB : fieldNN (packXB t x b) = b := by
  apply BitVec.eq_of_toNat_eq; rw [fieldNN_toNat, packXB_toNat]; omega

@[simp] theorem fieldT_packXY : fieldT (packXY t x y f) = t := by
  apply BitVec.eq_of_toNat_eq; rw [fieldT_toNat, packXY_toNat]; omega

@[simp] theorem fieldX_packXY : fieldX (packXY t x y f) = x := by
  apply Fin.ext; rw [fieldX_val, packXY_toNat]; omega

@[simp] theorem fieldY_packXY : fieldY (packXY t x y f) = y := by
  apply Fin.ext; rw [fieldY_val, packXY_toNat]; omega

@[simp] theorem fieldN_packXY : fieldN (packXY t x y f) = f := by
  apply BitVec.eq_of_toNat_eq; rw [fieldN_toNat, packXY_toNat]; omega

/-- An opcode is its top nibble and its address field. -/
theorem packA_fields : packA (fieldT op) (fieldNNN op) = op := by
  apply BitVec.eq_of_toNat_eq; rw [packA_toNat, fieldT_toNat, fieldNNN_toNat]; omega

/-- An opcode is its top nibble, `x` and its low byte. -/
theorem packXB_fields : packXB (fieldT op) (fieldX op) (fieldNN op) = op := by
  apply BitVec.eq_of_toNat_eq; rw [packXB_toNat, fieldT_toNat, fieldX_val, fieldNN_toNat]; omega

/-- An opcode is its four nibbles. -/
theorem packXY_fields : packXY (fieldT op) (fieldX op) (fieldY op) (fieldN op) = op := by
  apply BitVec.eq_of_toNat_eq; rw [packXY_toNat, fieldT_toNat, fieldX_val, fieldY_val, fieldN_toNat]; omega

/-- The two bytes of an opcode read back big-endian as the opcode (R86). -/
@[simp] theorem wordOfBytes_high_low : wordOfBytes (highByte op) (lowByte op) = op := by
  apply BitVec.eq_of_toNat_eq
  simp only [wordOfBytes, highByte, lowByte, BitVec.toNat_ofNat, BitVec.extractLsb'_toNat,
    Nat.shiftRight_eq_div_pow]
  omega

/-- Every instruction term is well formed: its operand types carry the widths (R111). -/
theorem Instr.wellFormed_all (i : Instr) : i.wellFormed = true := by
  unfold Instr.wellFormed Operands.wellFormed
  have h : i.operands.x < 16 ∧ i.operands.y < 16 ∧ i.operands.n < 16 ∧ i.operands.nn < 256 ∧
      i.operands.nnn < 4096 := by
    cases i <;> dsimp only [Instr.operands] <;> omega
  simp [h]

end Sys2Proof
end

