-- ==== Sys2Proof/Laws/PerInstr.lean ====
section
/-! SUPPORT. Per instruction: its row stands in the opcode map and its encoding matches every fixed bit of that row
(30_encoding.md R115, R121). -/

namespace Sys2Proof.Laws

/-! ## The bits of a packed opcode, and the masks of the opcode map -/

theorem packA_getLsbD (t : Nibble) (nnn : Addr12) (i : Nat) :
    (packA t nnn).getLsbD i = if i < 12 then nnn.getLsbD i else t.getLsbD (i - 12) := by
  have h : (packA t nnn).getLsbD i = (t ++ nnn : BitVec (4 + 12)).getLsbD i := rfl
  rw [h, BitVec.getLsbD_append]

theorem packXB_getLsbD (t : Nibble) (x : Reg) (b : Byte) (i : Nat) :
    (packXB t x b).getLsbD i =
      if i < 8 then b.getLsbD i else if i - 8 < 4 then (regBits x).getLsbD (i - 8) else t.getLsbD (i - 8 - 4) := by
  have h : (packXB t x b).getLsbD i = (t ++ regBits x ++ b : BitVec (4 + 4 + 8)).getLsbD i := rfl
  rw [h, BitVec.getLsbD_append, BitVec.getLsbD_append]

theorem packXY_getLsbD (t : Nibble) (x y : Reg) (f : Nibble) (i : Nat) :
    (packXY t x y f).getLsbD i =
      if i < 4 then f.getLsbD i else if i - 4 < 4 then (regBits y).getLsbD (i - 4)
      else if i - 4 - 4 < 4 then (regBits x).getLsbD (i - 4 - 4) else t.getLsbD (i - 4 - 4 - 4) := by
  have h : (packXY t x y f).getLsbD i = (t ++ regBits x ++ regBits y ++ f : BitVec (4 + 4 + 4 + 4)).getLsbD i := rfl
  rw [h, BitVec.getLsbD_append, BitVec.getLsbD_append, BitVec.getLsbD_append]

theorem packA_mask (t : Nibble) (nnn : Addr12) : packA t nnn &&& 0xF000#16 = packA t 0#12 := by
  apply BitVec.eq_of_getLsbD_eq
  intro i hi
  rw [BitVec.getLsbD_and, packA_getLsbD, packA_getLsbD]
  interval_cases i <;> simp

theorem packXB_mask_top (t : Nibble) (x : Reg) (b : Byte) : packXB t x b &&& 0xF000#16 = packXB t 0 0#8 := by
  apply BitVec.eq_of_getLsbD_eq
  intro i hi
  rw [BitVec.getLsbD_and, packXB_getLsbD, packXB_getLsbD]
  interval_cases i <;> simp [regBits]

theorem packXB_mask_low (t : Nibble) (x : Reg) (b : Byte) : packXB t x b &&& 0xF0FF#16 = packXB t 0 b := by
  apply BitVec.eq_of_getLsbD_eq
  intro i hi
  rw [BitVec.getLsbD_and, packXB_getLsbD, packXB_getLsbD]
  interval_cases i <;> simp [regBits]

theorem packXY_mask_top (t : Nibble) (x y : Reg) (f : Nibble) : packXY t x y f &&& 0xF000#16 = packXY t 0 0 0#4 := by
  apply BitVec.eq_of_getLsbD_eq
  intro i hi
  rw [BitVec.getLsbD_and, packXY_getLsbD, packXY_getLsbD]
  interval_cases i <;> simp [regBits]

theorem packXY_mask_low (t : Nibble) (x y : Reg) (f : Nibble) : packXY t x y f &&& 0xF00F#16 = packXY t 0 0 f := by
  apply BitVec.eq_of_getLsbD_eq
  intro i hi
  rw [BitVec.getLsbD_and, packXY_getLsbD, packXY_getLsbD]
  interval_cases i <;> simp [regBits]

/-! ## The family -/

/-- The encoding of the instruction matches every fixed bit of its own row of the opcode map. -/
def OwnRow.Statement (i : Instr) : Prop := i.row ∈ opcodeTable ∧ i.row.selects (encode i) = true

/-- A row selects a word when the mask leaves its pattern (R115). -/
theorem ownRow_of_mask {i : Instr} {w : Word} (hrow : i.row ∈ opcodeTable) (hm : encode i &&& i.row.mask = w)
    (hw : w = i.row.pattern) : OwnRow.Statement i :=
  ⟨hrow, by rw [OpcodeRow.selects, hm, hw]; exact beq_self_eq_true _⟩

theorem OwnRow.cls : OwnRow.Statement .cls := ownRow_of_mask (by decide) rfl rfl
theorem OwnRow.ret : OwnRow.Statement .ret := ownRow_of_mask (by decide) rfl rfl
theorem OwnRow.jp (nnn : Addr12) : OwnRow.Statement (.jp nnn) :=
  ownRow_of_mask (by simp only [Instr.row]; decide) (packA_mask ..) rfl
theorem OwnRow.call (nnn : Addr12) : OwnRow.Statement (.call nnn) :=
  ownRow_of_mask (by simp only [Instr.row]; decide) (packA_mask ..) rfl
theorem OwnRow.seImm (x : Reg) (nn : Byte) : OwnRow.Statement (.seImm x nn) :=
  ownRow_of_mask (by simp only [Instr.row]; decide) (packXB_mask_top ..) rfl
theorem OwnRow.sneImm (x : Reg) (nn : Byte) : OwnRow.Statement (.sneImm x nn) :=
  ownRow_of_mask (by simp only [Instr.row]; decide) (packXB_mask_top ..) rfl
theorem OwnRow.seReg (x y : Reg) : OwnRow.Statement (.seReg x y) :=
  ownRow_of_mask (by simp only [Instr.row]; decide) (packXY_mask_low ..) rfl
theorem OwnRow.ldImm (x : Reg) (nn : Byte) : OwnRow.Statement (.ldImm x nn) :=
  ownRow_of_mask (by simp only [Instr.row]; decide) (packXB_mask_top ..) rfl
theorem OwnRow.addImm (x : Reg) (nn : Byte) : OwnRow.Statement (.addImm x nn) :=
  ownRow_of_mask (by simp only [Instr.row]; decide) (packXB_mask_top ..) rfl
theorem OwnRow.ldReg (x y : Reg) : OwnRow.Statement (.ldReg x y) :=
  ownRow_of_mask (by simp only [Instr.row]; decide) (packXY_mask_low ..) rfl
theorem OwnRow.orReg (x y : Reg) : OwnRow.Statement (.orReg x y) :=
  ownRow_of_mask (by simp only [Instr.row]; decide) (packXY_mask_low ..) rfl
theorem OwnRow.andReg (x y : Reg) : OwnRow.Statement (.andReg x y) :=
  ownRow_of_mask (by simp only [Instr.row]; decide) (packXY_mask_low ..) rfl
theorem OwnRow.xorReg (x y : Reg) : OwnRow.Statement (.xorReg x y) :=
  ownRow_of_mask (by simp only [Instr.row]; decide) (packXY_mask_low ..) rfl
theorem OwnRow.addReg (x y : Reg) : OwnRow.Statement (.addReg x y) :=
  ownRow_of_mask (by simp only [Instr.row]; decide) (packXY_mask_low ..) rfl
theorem OwnRow.sub (x y : Reg) : OwnRow.Statement (.sub x y) :=
  ownRow_of_mask (by simp only [Instr.row]; decide) (packXY_mask_low ..) rfl
theorem OwnRow.shr (x y : Reg) : OwnRow.Statement (.shr x y) :=
  ownRow_of_mask (by simp only [Instr.row]; decide) (packXY_mask_low ..) rfl
theorem OwnRow.subn (x y : Reg) : OwnRow.Statement (.subn x y) :=
  ownRow_of_mask (by simp only [Instr.row]; decide) (packXY_mask_low ..) rfl
theorem OwnRow.shl (x y : Reg) : OwnRow.Statement (.shl x y) :=
  ownRow_of_mask (by simp only [Instr.row]; decide) (packXY_mask_low ..) rfl
theorem OwnRow.sneReg (x y : Reg) : OwnRow.Statement (.sneReg x y) :=
  ownRow_of_mask (by simp only [Instr.row]; decide) (packXY_mask_low ..) rfl
theorem OwnRow.ldI (nnn : Addr12) : OwnRow.Statement (.ldI nnn) :=
  ownRow_of_mask (by simp only [Instr.row]; decide) (packA_mask ..) rfl
theorem OwnRow.jpV0 (nnn : Addr12) : OwnRow.Statement (.jpV0 nnn) :=
  ownRow_of_mask (by simp only [Instr.row]; decide) (packA_mask ..) rfl
theorem OwnRow.rnd (x : Reg) (nn : Byte) : OwnRow.Statement (.rnd x nn) :=
  ownRow_of_mask (by simp only [Instr.row]; decide) (packXB_mask_top ..) rfl
theorem OwnRow.drw (x y : Reg) (n : Nibble) : OwnRow.Statement (.drw x y n) :=
  ownRow_of_mask (by simp only [Instr.row]; decide) (packXY_mask_top ..) rfl
theorem OwnRow.skp (x : Reg) : OwnRow.Statement (.skp x) :=
  ownRow_of_mask (by simp only [Instr.row]; decide) (packXB_mask_low ..) rfl
theorem OwnRow.sknp (x : Reg) : OwnRow.Statement (.sknp x) :=
  ownRow_of_mask (by simp only [Instr.row]; decide) (packXB_mask_low ..) rfl
theorem OwnRow.ldVxDt (x : Reg) : OwnRow.Statement (.ldVxDt x) :=
  ownRow_of_mask (by simp only [Instr.row]; decide) (packXB_mask_low ..) rfl
theorem OwnRow.ldVxK (x : Reg) : OwnRow.Statement (.ldVxK x) :=
  ownRow_of_mask (by simp only [Instr.row]; decide) (packXB_mask_low ..) rfl
theorem OwnRow.ldDtVx (x : Reg) : OwnRow.Statement (.ldDtVx x) :=
  ownRow_of_mask (by simp only [Instr.row]; decide) (packXB_mask_low ..) rfl
theorem OwnRow.ldStVx (x : Reg) : OwnRow.Statement (.ldStVx x) :=
  ownRow_of_mask (by simp only [Instr.row]; decide) (packXB_mask_low ..) rfl
theorem OwnRow.addIVx (x : Reg) : OwnRow.Statement (.addIVx x) :=
  ownRow_of_mask (by simp only [Instr.row]; decide) (packXB_mask_low ..) rfl
theorem OwnRow.ldFVx (x : Reg) : OwnRow.Statement (.ldFVx x) :=
  ownRow_of_mask (by simp only [Instr.row]; decide) (packXB_mask_low ..) rfl
theorem OwnRow.ldBVx (x : Reg) : OwnRow.Statement (.ldBVx x) :=
  ownRow_of_mask (by simp only [Instr.row]; decide) (packXB_mask_low ..) rfl
theorem OwnRow.ldMemVx (x : Reg) : OwnRow.Statement (.ldMemVx x) :=
  ownRow_of_mask (by simp only [Instr.row]; decide) (packXB_mask_low ..) rfl
theorem OwnRow.ldVxMem (x : Reg) : OwnRow.Statement (.ldVxMem x) :=
  ownRow_of_mask (by simp only [Instr.row]; decide) (packXB_mask_low ..) rfl

end Sys2Proof.Laws
end

