-- ==== Sys2Proof/Tests/Slice0.lean ====
section
/-! SUPPORT. Tests on fixed values. Expected results are those of 95_test_vectors.md, or worked out by hand from the
rule named. Then one witness for each statement that has hypotheses: states and operands that meet them together, clause
by clause, at the boundary values. -/

namespace Sys2Proof.Tests

open Sys2Proof.Machine

/-! ## Helpers -/

/-- A key vector with no key down. -/
def noKeys : Vector Bool 16 := Vector.replicate 16 false

/-- The reset state with one opcode at `0x200`, about to run the cycle with no key down and `rand = 0`
(the conventions of 95_test_vectors.md). -/
def start (w : Nat) : State := { State.reset.withFetchWord 16 w with hostOps := [.cycle noKeys 0] }

/-- A state with other parameters. -/
def withParams (s : State) (u : UnknownOpcodePolicy) (c : TimerCoupling) (f : FlagWriteOrder) : State :=
  { s with params := { s.params with unknownOpcode := u, timerCoupling := c, flagOrder := f } }

/-- The step answers a next state and `p` holds of it. -/
def after (s : State) (p : State → Bool) : Bool :=
  match step s with
  | .next t => p t
  | _ => false

/-- The step answers a next state in `Faulted` with this record, and with this `PC`. -/
def fails (s : State) (kind : ErrorKind) (opcode : Option Word) (pc : Word) (addr : Option Nat) (newPc : Word) : Bool :=
  after s fun t =>
    decide (t.exec = .faulted ∧ t.fault = some { kind := kind, opcode := opcode, pc := pc, addr := addr } ∧
      t.pc = newPc ∧ t.status = .err t.fault ∧ t.events = [])

/-! ## Decoding: every row of the opcode map, bit by bit from 30_encoding.md -/

theorem test_decode_cls : decode 0b0000000011100000#16 = .ok (.cls) := by decide
theorem test_decode_ret : decode 0b0000000011101110#16 = .ok (.ret) := by decide
theorem test_decode_jp : decode 0b0001001000110100#16 = .ok (.jp 0x234#12) := by decide
theorem test_decode_call : decode 0b0010001100000000#16 = .ok (.call 0x300#12) := by decide
theorem test_decode_seImm : decode 0b0011001100101010#16 = .ok (.seImm 3 0x2A#8) := by decide
theorem test_decode_sneImm : decode 0b0100001100101010#16 = .ok (.sneImm 3 0x2A#8) := by decide
theorem test_decode_seReg : decode 0b0101000100100000#16 = .ok (.seReg 1 2) := by decide
theorem test_decode_ldImm : decode 0b0110101000101011#16 = .ok (.ldImm 10 0x2B#8) := by decide
theorem test_decode_addImm : decode 0b0111001000000001#16 = .ok (.addImm 2 0x01#8) := by decide
theorem test_decode_ldReg : decode 0b1000000100100000#16 = .ok (.ldReg 1 2) := by decide
theorem test_decode_orReg : decode 0b1000000100100001#16 = .ok (.orReg 1 2) := by decide
theorem test_decode_andReg : decode 0b1000000100100010#16 = .ok (.andReg 1 2) := by decide
theorem test_decode_xorReg : decode 0b1000000100100011#16 = .ok (.xorReg 1 2) := by decide
theorem test_decode_addReg : decode 0b1000000100100100#16 = .ok (.addReg 1 2) := by decide
theorem test_decode_sub : decode 0b1000000100100101#16 = .ok (.sub 1 2) := by decide
theorem test_decode_shr : decode 0b1000000100100110#16 = .ok (.shr 1 2) := by decide
theorem test_decode_subn : decode 0b1000000100100111#16 = .ok (.subn 1 2) := by decide
theorem test_decode_shl : decode 0b1000000100101110#16 = .ok (.shl 1 2) := by decide
theorem test_decode_sneReg : decode 0b1001000100100000#16 = .ok (.sneReg 1 2) := by decide
theorem test_decode_ldI : decode 0b1010001011110000#16 = .ok (.ldI 0x2F0#12) := by decide
theorem test_decode_jpV0 : decode 0b1011111111111111#16 = .ok (.jpV0 0xFFF#12) := by decide
theorem test_decode_rnd : decode 0b1100010100001111#16 = .ok (.rnd 5 0x0F#8) := by decide
theorem test_decode_drw : decode 0b1101000000010010#16 = .ok (.drw 0 1 2#4) := by decide
theorem test_decode_skp : decode 0b1110010110011110#16 = .ok (.skp 5) := by decide
theorem test_decode_sknp : decode 0b1110010110100001#16 = .ok (.sknp 5) := by decide
theorem test_decode_ldVxDt : decode 0b1111010000000111#16 = .ok (.ldVxDt 4) := by decide
theorem test_decode_ldVxK : decode 0b1111001100001010#16 = .ok (.ldVxK 3) := by decide
theorem test_decode_ldDtVx : decode 0b1111001100010101#16 = .ok (.ldDtVx 3) := by decide
theorem test_decode_ldStVx : decode 0b1111001000011000#16 = .ok (.ldStVx 2) := by decide
theorem test_decode_addIVx : decode 0b1111010000011110#16 = .ok (.addIVx 4) := by decide
theorem test_decode_ldFVx : decode 0b1111000000101001#16 = .ok (.ldFVx 0) := by decide
theorem test_decode_ldBVx : decode 0b1111000000110011#16 = .ok (.ldBVx 0) := by decide
theorem test_decode_ldMemVx : decode 0b1111001001010101#16 = .ok (.ldMemVx 2) := by decide
theorem test_decode_ldVxMem : decode 0b1111001001100101#16 = .ok (.ldVxMem 2) := by decide

/-- Three words of program P2 of 95_test_vectors.md (`A300`, `60EA`, `F033`), a `DW` and a `DB`. -/
theorem test_assemble :
    assemble [.insn (.ldI 0x300#12), .insn (.ldImm 0 234#8), .dw 0x0000#16, .insn (.ldBVx 0), .db 0x12#8] =
      [0xA3#8, 0x00#8, 0x60#8, 0xEA#8, 0x00#8, 0x00#8, 0xF0#8, 0x33#8, 0x12#8] := by decide

theorem test_assembly_text :
    asmText (.drw 1 2 5#4) = "DRW V1, V2, 5" ∧ asmText (.ldVxMem 15) = "LD VF, [I]" ∧
    encode (shlAlone 1) = 0x810E#16 := by decide

/-- The `Unknown` words of 95_test_vectors.md 2.1. -/
theorem test_decode_unknown :
    [0x0000#16, 0x00E1#16, 0x00EF#16, 0x0123#16, 0x00FF#16, 0x5121#16, 0x512F#16, 0x8008#16, 0x800F#16, 0x80FD#16].all
      (fun op => decide (decode op = .error (.unknown op))) = true := by decide
theorem test_decode_unknown_high :
    [0x9AB1#16, 0xE100#16, 0xE19F#16, 0xE1A2#16, 0xF100#16, 0xF108#16, 0xF130#16, 0xF156#16, 0xF1FF#16].all
      (fun op => decide (decode op = .error (.unknown op))) = true := by decide

/-- Memory order: the byte at the lower address is the high byte (R86). -/
theorem test_decode_bytes : decodeBytes [0x60#8, 0x05#8, 0xFF#8] = .ok (.ldImm 0 0x05#8, [0xFF#8]) := by decide

theorem test_decode_truncated : decodeBytes [0x60#8] = .error .truncated := by decide

theorem test_decode_table_word : decodeTableWord 16 0xD012 = some (.drw 0 1 2#4) := by decide

/-! ## Well-formedness: one ill-formed operand for each check (R111), and a ROM one byte too long (R463) -/

theorem test_wf_accepts : Operands.wellFormed { x := 15, y := 15, n := 15, nn := 255, nnn := 4095 } = true := by decide
theorem test_wf_x : Operands.wellFormed { x := 16 } = false := by decide
theorem test_wf_y : Operands.wellFormed { y := 16 } = false := by decide
theorem test_wf_n : Operands.wellFormed { n := 16 } = false := by decide
theorem test_wf_nn : Operands.wellFormed { nn := 256 } = false := by decide
theorem test_wf_nnn : Operands.wellFormed { nnn := 4096 } = false := by decide
theorem test_wf_rom : romWellFormed (List.replicate 3584 0) = true ∧ romWellFormed (List.replicate 3585 0) = false :=
  ⟨decide_eq_true (by rw [List.length_replicate]), decide_eq_false (by rw [List.length_replicate]; decide)⟩

/-! ## One step: the vectors of 95_test_vectors.md, parts 1 and 2 -/

/-! ### Control flow -/

theorem test_jp :
    after (start 0x1234)
      (fun t => decide (t.pc = 0x234#16 ∧ t.exec = .running ∧ t.status = .ok)) = true := by
    decide

theorem test_call :
    after (start 0x2300)
      (fun t => decide (t.pc = 0x300#16 ∧ t.sp.val = 1 ∧ t.stack[0] = 0x202#16)) = true := by
    decide

theorem test_call_overflow :
    fails ({ start 0x2300 with sp := 16 }) .stackOverflow (some 0x2300#16) 0x200#16 (none) 0x202#16 = true := by
    decide

theorem test_ret :
    after ({ start 0x00EE with sp := 1, stack := State.reset.stack.set 0 0x456#16 })
      (fun t => decide (t.pc = 0x456#16 ∧ t.sp.val = 0 ∧ t.stack[0] = 0x456#16)) = true := by
    decide

theorem test_ret_underflow :
    fails (start 0x00EE) .stackUnderflow (some 0x00EE#16) 0x200#16 (none) 0x202#16 = true := by
    decide

theorem test_se_imm_taken :
    after ((start 0x332A).setReg 3 0x2A)
      (fun t => decide (t.pc = 0x204#16)) = true := by
    decide

theorem test_se_imm_not :
    after ((start 0x332A).setReg 3 0x2B)
      (fun t => decide (t.pc = 0x202#16)) = true := by
    decide

theorem test_sne_imm_taken :
    after ((start 0x432A).setReg 3 0x2B)
      (fun t => decide (t.pc = 0x204#16)) = true := by
    decide

theorem test_se_reg_taken :
    after (((start 0x5120).setReg 1 7).setReg 2 7)
      (fun t => decide (t.pc = 0x204#16)) = true := by
    decide

theorem test_sne_reg_same :
    after (start 0x9110)
      (fun t => decide (t.pc = 0x202#16)) = true := by
    decide

theorem test_sne_reg_taken :
    after (((start 0x9120).setReg 1 7).setReg 2 8)
      (fun t => decide (t.pc = 0x204#16)) = true := by
    decide

theorem test_jp_v0 :
    after ((start 0xB300).setReg 0 0x10)
      (fun t => decide (t.pc = 0x310#16)) = true := by
    decide

theorem test_jp_v0_unmasked :
    after ((start 0xBFFF).setReg 0 0xFF)
      (fun t => decide (t.pc = 0x10FE#16 ∧ t.exec = .running)) = true := by
    decide

theorem test_fetch_odd :
    fails ({ start 0x1201 with pc := 0x201 }) .invalidPC (none) 0x201#16 (some 0x201) 0x201#16 = true := by
    decide

theorem test_fetch_top :
    fails ({ start 0x6001 with pc := 0xFFE }) .invalidPC (none) 0xFFE#16 (some 0xFFE) 0xFFE#16 = true := by
    decide

/-! ### Arithmetic and logic -/

theorem test_ld_imm :
    after (start 0x6A2B)
      (fun t => decide (t.v[10] = 0x2B#8 ∧ t.pc = 0x202#16)) = true := by
    decide

theorem test_add_imm_wraps :
    after (((start 0x7201).setReg 2 0xFF).setReg 15 0x55)
      (fun t => decide (t.v[2] = 0#8 ∧ t.v[15] = 0x55#8)) = true := by
    decide

theorem test_ld_reg :
    after (((start 0x8120).setReg 1 0x12).setReg 2 0x34)
      (fun t => decide (t.v[1] = 0x34#8 ∧ t.v[2] = 0x34#8)) = true := by
    decide

theorem test_or :
    after ((((start 0x8121).setReg 1 0xF0).setReg 2 0x0F).setReg 15 0x77)
      (fun t => decide (t.v[1] = 0xFF#8 ∧ t.v[15] = 0x77#8)) = true := by
    decide

theorem test_and :
    after (((start 0x8122).setReg 1 0xF0).setReg 2 0x3C)
      (fun t => decide (t.v[1] = 0x30#8)) = true := by
    decide

theorem test_xor :
    after (((start 0x8123).setReg 1 0xF0).setReg 2 0x3C)
      (fun t => decide (t.v[1] = 0xCC#8)) = true := by
    decide

theorem test_add_carry :
    after (((start 0x8124).setReg 1 0xFF).setReg 2 1)
      (fun t => decide (t.v[1] = 0#8 ∧ t.v[15] = 1#8)) = true := by
    decide

theorem test_add_y_is_f :
    after (((start 0x81F4).setReg 15 0xFF).setReg 1 1)
      (fun t => decide (t.v[1] = 0#8 ∧ t.v[15] = 1#8)) = true := by
    decide

theorem test_sub_borrow :
    after (((start 0x8125).setReg 1 5).setReg 2 7)
      (fun t => decide (t.v[1] = 0xFE#8 ∧ t.v[15] = 0#8)) = true := by
    decide

theorem test_sub_equal :
    after (((start 0x8125).setReg 1 5).setReg 2 5)
      (fun t => decide (t.v[1] = 0#8 ∧ t.v[15] = 1#8)) = true := by
    decide

theorem test_shr :
    after (((start 0x8126).setReg 1 3).setReg 2 0xFF)
      (fun t => decide (t.v[1] = 1#8 ∧ t.v[15] = 1#8 ∧ t.v[2] = 0xFF#8)) = true := by
    decide

theorem test_shr_flag_last :
    after ((start 0x8F06).setReg 15 0x81)
      (fun t => decide (t.v[15] = 1#8)) = true := by
    decide

theorem test_subn :
    after (((start 0x8127).setReg 1 5).setReg 2 7)
      (fun t => decide (t.v[1] = 2#8 ∧ t.v[15] = 1#8)) = true := by
    decide

theorem test_subn_result_last :
    after (withParams (((start 0x8F17).setReg 15 5).setReg 1 3) .strict .coupled .resultLast)
      (fun t => decide (t.v[15] = 0xFE#8)) = true := by
    decide

theorem test_shl :
    after ((start 0x810E).setReg 1 0x81)
      (fun t => decide (t.v[1] = 2#8 ∧ t.v[15] = 1#8)) = true := by
    decide

theorem test_shl_no_flag :
    after ((start 0x810E).setReg 1 0x40)
      (fun t => decide (t.v[1] = 0x80#8 ∧ t.v[15] = 0#8)) = true := by
    decide

theorem test_rnd :
    after ({ start 0xC50F with hostOps := [.cycle noKeys 0xAB] })
      (fun t => decide (t.v[5] = 0x0B#8)) = true := by
    decide

/-! ### Index register and memory -/

theorem test_ld_i :
    after (start 0xA2F0)
      (fun t => decide (t.i = 0x2F0#16)) = true := by
    decide

theorem test_add_i_wraps :
    after (((start 0xF41E).setI 0xFFFF).setReg 4 1)
      (fun t => decide (t.i = 0#16 ∧ t.exec = .running)) = true := by
    decide

theorem test_add_i_past_memory :
    after (((start 0xF41E).setI 0xFFF).setReg 4 1)
      (fun t => decide (t.i = 0x1000#16 ∧ t.v[15] = 0#8)) = true := by
    decide

theorem test_ld_f :
    after ((start 0xF029).setReg 0 0x0A)
      (fun t => decide (t.i = 0x32#16 ∧ t.readBytes 0x32 5 = [0xF0#8, 0x90#8, 0xF0#8, 0x90#8, 0x90#8])) = true := by
    decide

theorem test_ld_f_whole_byte :
    after ((start 0xF029).setReg 0 0xFF)
      (fun t => decide (t.i = 0x4FB#16)) = true := by
    decide

theorem test_bcd :
    after (((start 0xF033).setI 0x300).setReg 0 234)
      (fun t => decide (t.readBytes 0x300 3 = [2#8, 3#8, 4#8] ∧ t.i = 0x300#16)) = true := by
    decide

theorem test_bcd_out_of_memory :
    fails (((start 0xF033).setI 0xFFE).setReg 0 7) .memoryOutOfBounds (some 0xF033#16) 0x200#16 (some 0x1000) 0x202#16 = true := by
    decide

theorem test_store_regs :
    after (((((start 0xF255).setI 0x300).setReg 0 1).setReg 1 2).setReg 2 3)
      (fun t => decide (t.readBytes 0x300 4 = [1#8, 2#8, 3#8, 0#8] ∧ t.i = 0x300#16)) = true := by
    decide

theorem test_store_regs_out_of_memory :
    fails ((start 0xFF55).setI 0xFF1) .memoryOutOfBounds (some 0xFF55#16) 0x200#16 (some 0x1000) 0x202#16 = true := by
    decide

theorem test_load_regs :
    after (((start 0xF265).setI 0x300).writeBytes 0x300 [2, 3, 4, 5])
      (fun t => decide (t.v[0] = 2#8 ∧ t.v[1] = 3#8 ∧ t.v[2] = 4#8 ∧ t.v[3] = 0#8 ∧ t.i = 0x300#16)) = true := by
    decide

theorem test_load_regs_out_of_memory :
    fails ((start 0xF065).setI 0x1234) .memoryOutOfBounds (some 0xF065#16) 0x200#16 (some 0x1234) 0x202#16 = true := by
    decide

/-! ### Display -/

theorem test_cls :
    after ({ start 0x00E0 with drawFlag := false, fb := Frame.toggle Frame.blank 3 4 })
      (fun t => decide (Frame.cell t.fb 3 4 = false ∧ t.drawFlag = true)) = true := by
    decide

theorem test_drw_wraps :
    after (((((start 0xD012).setI 0x300).setReg 0 63).setReg 1 31).writeBytes 0x300 [0xC0, 0xC0])
      (fun t => decide ([(63, 31), (0, 31), (63, 0), (0, 0)].all (fun c => Frame.cell t.fb c.1 c.2) = true ∧
        Frame.cell t.fb 1 0 = false ∧ Frame.cell t.fb 62 31 = false ∧ t.v[15] = 0#8)) = true := by
    decide

theorem test_drw_collision :
    after ({ ((start 0xD0F1).setI 0x300).writeBytes 0x300 [0x80] with
      fb := Frame.toggle Frame.blank 0 2, v := State.reset.v.set 15 2 })
      (fun t => decide (Frame.cell t.fb 0 2 = false ∧ t.v[15] = 1#8)) = true := by
    decide

/-! ### Keypad -/

theorem test_skp_down :
    after ({ (start 0xE59E).setReg 5 7 with hostOps := [.cycle (noKeys.set 7 true) 0] })
      (fun t => decide (t.pc = 0x204#16)) = true := by
    decide

theorem test_skp_no_such_key :
    fails ((start 0xE59E).setReg 5 0x10) .keyOutOfRange (some 0xE59E#16) 0x200#16 (none) 0x202#16 = true := by
    decide

theorem test_sknp_up :
    after ((start 0xE5A1).setReg 5 7)
      (fun t => decide (t.pc = 0x204#16)) = true := by
    decide

theorem test_sknp_down :
    after ({ (start 0xE5A1).setReg 5 7 with hostOps := [.cycle (noKeys.set 7 true) 0] })
      (fun t => decide (t.pc = 0x202#16)) = true := by
    decide

theorem test_key_wait :
    after (start 0xF30A)
      (fun t => decide (t.exec = .waitingForKey ∧ t.waitReg = 3 ∧ t.pc = 0x202#16 ∧ t.v[3] = 0#8)) = true := by
    decide

theorem test_key_wait_lowest :
    after ({ start 0 with
      exec := .waitingForKey, waitReg := 3, hostOps := [.cycle ((noKeys.set 2 true).set 7 true) 0] })
      (fun t => decide (t.v[3] = 2#8 ∧ t.exec = .running ∧ t.pc = 0x200#16)) = true := by
    decide

/-! ### Timers -/

theorem test_ld_vx_dt :
    after ({ start 0xF407 with dt := 4 })
      (fun t => decide (t.v[4] = 4#8 ∧ t.dt = 3#8)) = true := by
    decide

theorem test_ld_dt_vx :
    after ((start 0xF315).setReg 3 5)
      (fun t => decide (t.dt = 4#8)) = true := by
    decide

theorem test_ld_st_vx :
    after ((start 0xF218).setReg 2 1)
      (fun t => decide (t.st = 0#8 ∧ t.events = [.audioOn, .audioOff])) = true := by
    decide

theorem test_ld_st_vx_zero :
    after ({ start 0xF018 with st := 4 })
      (fun t => decide (t.st = 0#8 ∧ t.events = [.audioOff])) = true := by
    decide

/-! ### Unknown opcodes and the other host operations -/

theorem test_unknown_strict :
    fails (start 0x5121) .unknownOpcode (some 0x5121#16) 0x200#16 (none) 0x202#16 = true := by
    decide

theorem test_unknown_lenient :
    after (withParams (start 0x5121) .lenient .coupled .flagLast)
      (fun t => decide (t.exec = .running ∧ t.pc = 0x202#16 ∧ t.fault = none ∧
        t.status = .warn { kind := .unknownOpcode, opcode := some 0x5121#16, pc := 0x200#16, addr := none })) = true := by
    decide

theorem test_load_program :
    after ({ State.reset with hostOps := [.loadProgram [0x22, 0x10]] })
      (fun t => decide (t.readBytes 0x200 3 = [0x22#8, 0x10#8, 0#8] ∧ t.status = .ok)) = true := by
    decide

theorem test_timer_tick :
    after ({ withParams State.reset .strict .decoupled .flagLast with st := 1, hostOps := [.timerTick] })
      (fun t => decide (t.st = 0#8 ∧ t.events = [.audioOff])) = true := by
    decide

theorem test_timer_tick_coupled :
    step { State.reset with hostOps := [.timerTick] } = .refused .timerTickUnderCoupled := rfl

theorem test_memory_canonical : (State.writeBytes (start 0x6A2B) 0x200 [0, 0]).mem = [] := by decide

/-! ## Witnesses: the hypotheses of each statement, met together -/

/-- The state `start w` after its one pending cycle is taken off the queue. -/
def started (w : Nat) : State := { start w with hostOps := [] }

theorem start_takes (w : Nat) : (start w).TakesCycle noKeys 0 (started w) := .inl ⟨[], rfl, rfl⟩

/-- Nothing but the head of the queue matters to `TakesCycle`. -/
theorem takes_head (s : State) (h : s.hostOps = [.cycle noKeys 0]) :
    s.TakesCycle noKeys 0 { s with hostOps := [] } := .inl ⟨[], h, rfl⟩

/-- A cycle nobody scripted. -/
theorem takes_free (s : State) (h : s.hostOps = []) :
    s.TakesCycle (Config.freeKeys s.draws) (Config.freeRand s.draws) { s with draws := s.draws + 1 } :=
  .inr ⟨h, rfl, rfl, rfl⟩

/-- A record to stand in `Fault`. -/
def someRecord : ErrorRecord := { kind := .stackUnderflow, opcode := some 0x00EE#16, pc := 0x200#16, addr := none }

theorem witness_EncodeOfDecode : decode 0xDFFF#16 = .ok (.drw 15 15 15#4) ∧ decode 0x00E0#16 = .ok .cls := by decide

theorem witness_DecodeMatchesOpcodeMap :
    decode 0xFF65#16 = .ok (.ldVxMem 15) ∧ opcodeTable.all (fun row => !row.selects 0xFF66#16) = true := by decide

theorem witness_OpcodeMapRowsAreDisjoint :
    opcodeTable.all (fun row => row.selects row.pattern) = true := by decide

/-- The first and the last word of each alternative. -/
theorem witness_UnknownWordsByFamily :
    [0x0000#16, 0x0FFF#16, 0x5001#16, 0x5FFF#16, 0x8008#16, 0x8FFF#16, 0x9001#16, 0x9FFF#16, 0xE000#16, 0xEFFF#16,
      0xF000#16, 0xFFFF#16].all (fun op => decide (decode op = .error (.unknown op))) = true := by decide

/-- `Coupled` without failure, `Decoupled` without failure, and a handler that fails. -/
theorem witness_StepRunsDecodedInstruction :
    (∃ s0, (start 0x6A2B).TakesCycle noKeys 0 s0) ∧ (start 0x6A2B).exec = .running ∧
    fetchOK (start 0x6A2B).pc = true ∧ decode ((start 0x6A2B).fetchWord 0x200) = .ok (.ldImm 10 0x2B#8) ∧
    (start 0x6A2B).params.timerCoupling = .coupled ∧
    (withParams (start 0x6A2B) .strict .decoupled .flagLast).params.timerCoupling = .decoupled ∧
    decode ((start 0x00EE).fetchWord 0x200) = .ok .ret :=
  ⟨⟨_, start_takes _⟩, rfl, by decide, by decide, rfl, rfl, by decide⟩

/-- Odd, below the program area, and past the last pair of bytes. -/
theorem witness_UnfetchablePcIsInvalidPC :
    ({ start 0 with pc := 0x201#16 } : State).TakesCycle noKeys 0 { started 0 with pc := 0x201#16 } ∧
    ({ start 0 with pc := 0x1FE#16 } : State).TakesCycle noKeys 0 { started 0 with pc := 0x1FE#16 } ∧
    ({ start 0 with pc := 0xFFE#16 } : State).TakesCycle noKeys 0 { started 0 with pc := 0xFFE#16 } ∧
    (start 0).exec = .running ∧ fetchOK 0x201#16 = false ∧ fetchOK 0x1FE#16 = false ∧ fetchOK 0xFFE#16 = false ∧
    fetchOK 0x200#16 = true ∧ fetchOK 0xFFC#16 = true :=
  ⟨takes_head _ rfl, takes_head _ rfl, takes_head _ rfl, rfl, by decide, by decide, by decide, by decide, by decide⟩

theorem witness_UnknownOpcodeFollowsPolicy :
    (start 0x5121).TakesCycle noKeys 0 (started 0x5121) ∧
    (withParams (start 0x5121) .lenient .coupled .flagLast).TakesCycle noKeys 0
      { withParams (start 0x5121) .lenient .coupled .flagLast with hostOps := [] } ∧
    (withParams (start 0x5121) .lenient .decoupled .flagLast).TakesCycle noKeys 0
      { withParams (start 0x5121) .lenient .decoupled .flagLast with hostOps := [] } ∧
    (start 0x5121).exec = .running ∧ (start 0x5121).params.unknownOpcode = .strict ∧
    fetchOK (start 0x5121).pc = true ∧ (start 0x5121).fetchWord 0x200 = 0x5121#16 ∧
    decode 0x5121#16 = .error (.unknown 0x5121#16) :=
  ⟨start_takes _, takes_head _ rfl, takes_head _ rfl, rfl, rfl, by decide, by decide, by decide⟩

/-- A fetch that fails, and a handler that fails after the fetch. -/
theorem witness_FailedCycleCommitsNothing :
    (∃ s0, ({ start 0 with pc := 0xFFE#16 } : State).TakesCycle noKeys 0 s0) ∧
    after { start 0 with pc := 0xFFE#16 } (fun t => decide (t.exec = .faulted)) = true ∧
    (∃ s0, (start 0x00EE).TakesCycle noKeys 0 s0) ∧
    after (start 0x00EE) (fun t => decide (t.exec = .faulted)) = true :=
  ⟨⟨_, takes_head _ rfl⟩, by decide, ⟨_, start_takes _⟩, by decide⟩

/-- A wait, entered with no key down, in front of the lowest and of the highest key. -/
theorem witness_WaitingCycleTakesLowestEdge :
    (∃ s0, ({ start 0 with exec := .waitingForKey } : State).TakesCycle noKeys 0 s0) ∧
    (∀ k : Key, ¬KeyEdge noKeys noKeys k) ∧ KeyEdge noKeys (noKeys.set 0 true) 0 ∧
    KeyEdge noKeys (noKeys.set 15 true) 15 ∧ (∀ j : Key, j < 15 → ¬KeyEdge noKeys (noKeys.set 15 true) j) :=
  ⟨⟨_, takes_head _ rfl⟩, by unfold KeyEdge; decide, by unfold KeyEdge; decide, by unfold KeyEdge; decide,
    by unfold KeyEdge; decide⟩

theorem witness_HeldKeysNeverResolveTheWait :
    ({ start 0 with exec := .waitingForKey, keyCur := noKeys.set 5 true,
                    hostOps := List.replicate 3 (.cycle (noKeys.set 5 true) 0) } : State).hostOps =
      List.replicate 3 (.cycle (noKeys.set 5 true) 0) := rfl

theorem witness_FaultedCycleChangesNothing :
    ∃ s0, ({ start 0 with exec := .faulted, fault := some someRecord } : State).TakesCycle noKeys 0 s0 :=
  ⟨_, takes_head _ rfl⟩

/-- Each timer at its last count in a cycle of each coupling, a waiting cycle, and a failing one. -/
theorem witness_TimersCountOncePerCycle :
    after { start 0x6A2B with dt := 1, st := 1 } (fun t => decide (t.exec = .running ∧ t.dt = 0 ∧ t.events = [.audioOff])) =
      true ∧
    after (withParams { start 0x6A2B with dt := 1, st := 1 } .strict .decoupled .flagLast)
      (fun t => decide (t.exec = .running ∧ t.dt = 1 ∧ t.events = [])) = true ∧
    after { start 0 with dt := 1, st := 1, exec := .waitingForKey } (fun t => decide (t.dt = 1 ∧ t.events = [])) = true ∧
    after { start 0x00EE with dt := 1, st := 1 } (fun t => decide (t.exec = .faulted ∧ t.st = 1 ∧ t.events = [])) =
      true := by decide

/-- `F315 F407` at `0x200`. -/
theorem witness_WrittenDelayTimerReadsBackOneLess :
    decode (((start 0xF315).writeBytes 0x202 [0xF4, 0x07]).fetchWord 0x200) = .ok (.ldDtVx 3) ∧
    decode (((start 0xF315).writeBytes 0x202 [0xF4, 0x07]).fetchWord 0x202) = .ok (.ldVxDt 4) ∧
    ({ (start 0xF315).writeBytes 0x202 [0xF4, 0x07] with hostOps := [.cycle noKeys 0, .cycle noKeys 0] } : State).exec =
      .running := by decide

theorem witness_PlacedWordIsFetchedNext :
    Memory.wf State.reset.params.font State.reset.mem = true ∧ (State.reset.withFetchWord 16 0xD012).fetchWord 0x200 = 0xD012#16 := by
  decide

theorem witness_HostResetInAnyState : ({ start 0 with exec := .faulted, hostOps := [.reset] } : State).hostOps = .reset :: [] := rfl

/-- A core that has failed, a ROM one byte too long, and a ROM of the greatest length. -/
theorem witness_LoadProgramCopiesOrFails :
    ({ start 0 with exec := .faulted, hostOps := [.loadProgram [0x12]] } : State).hostOps = .loadProgram [0x12] :: [] ∧
    (List.replicate 3585 (0 : Byte)).length > 3584 ∧ (List.replicate 3584 (0 : Byte)).length ≤ 3584 ∧
    Memory.wf (start 0x6A2B).params.font (start 0x6A2B).mem = true ∧ (start 0x6A2B).exec ≠ .faulted :=
  ⟨rfl, by rw [List.length_replicate]; decide, by rw [List.length_replicate], by decide, by decide⟩

theorem witness_TimerTickByCoupling :
    ({ State.reset with hostOps := [.timerTick] } : State).params.timerCoupling = .coupled ∧
    (withParams { State.reset with hostOps := [.timerTick] } .strict .decoupled .flagLast).params.timerCoupling =
      .decoupled ∧
    (withParams { State.reset with hostOps := [.timerTick], exec := .faulted } .strict .decoupled .flagLast).exec =
      .faulted ∧
    (withParams { State.reset with hostOps := [.timerTick] } .strict .decoupled .flagLast).exec ≠ .faulted := by decide

theorem witness_AckDrawClearsOnlyTheFlag : ({ start 0 with hostOps := [.ackDraw] } : State).hostOps = .ackDraw :: [] := rfl

theorem witness_ViewIsRowMajorAndReadOnly : ({ start 0 with hostOps := [.view] } : State).hostOps = .view :: [] := rfl

/-- A state with an instruction in memory meets the invariant and takes a step. -/
theorem witness_StepKeepsInvariant : (start 0x2300).Inv ∧ ∃ t, step (start 0x2300) = .next t :=
  ⟨⟨by decide, by decide, (by intro r h; cases h), by decide, by decide⟩, _, rfl⟩

theorem witness_ParametersNeverChange : ∃ t, step (start 0x6A2B) = .next t := ⟨_, rfl⟩

theorem witness_ExecTransitions :
    (start 0xF30A).exec = .running ∧ (∃ t, step (start 0xF30A) = .next t) ∧
    (∃ t, step { start 0 with exec := .waitingForKey } = .next t) ∧
    (∃ t, step { start 0 with exec := .faulted, fault := some someRecord } = .next t) :=
  ⟨rfl, ⟨_, rfl⟩, ⟨_, rfl⟩, ⟨_, rfl⟩⟩

/-- A drawing instruction, one that draws nothing, one that does not draw, and one that fails. -/
theorem witness_DrawFlagSetByDrawingOnly :
    (start 0x6A2B).drawFlag = true ∧ (∃ t, step (start 0x6A2B) = .next t) ∧ (start 0).exec = .running ∧
    (∃ t, exec .cls (start 0) = .next t ∧ t.exec ≠ .faulted) ∧
    (∃ t, exec (.drw 0 0 0#4) (start 0) = .next t ∧ t.exec ≠ .faulted) ∧ (∃ t, exec (.ldImm 0 0#8) (start 0) = .next t) ∧
    (∃ t, exec (.drw 0 0 1#4) ((start 0).setI 0x1000) = .next t ∧ t.exec = .faulted) :=
  ⟨rfl, ⟨_, rfl⟩, rfl, ⟨_, rfl, by decide⟩, ⟨_, rfl, by decide⟩, ⟨_, rfl⟩, ⟨_, rfl, rfl⟩⟩

theorem witness_MemoryWrittenByStoresOnly : ∃ t, exec (.ldVxMem 0) (start 0) = .next t := ⟨_, rfl⟩

theorem witness_WritersOfSpecialState : ∃ t, exec (.ldVxMem 15) (start 0) = .next t := ⟨_, rfl⟩

theorem witness_VFChangedOnlyWhereDocumented : ∃ t, exec (.ldVxMem 14) (start 0) = .next t := ⟨_, rfl⟩

theorem witness_RandAndPreviousKeysAreNotRead :
    (∃ t, exec (.rnd 0 0xFF#8) (start 0) = .next t) ∧ (∃ t, exec (.skp 0) (start 0) = .next t) := ⟨⟨_, rfl⟩, ⟨_, rfl⟩⟩

theorem witness_ReturnPopsOrUnderflows :
    ({ start 0 with sp := 1 } : State).sp.val = (0 : Fin 16).val + 1 ∧
    ({ start 0 with sp := 16 } : State).sp.val = (15 : Fin 16).val + 1 ∧ (start 0).sp.val = 0 := by decide

theorem witness_CallPushesOrOverflows :
    (start 0).sp.val = (0 : Fin 16).val ∧ ({ start 0 with sp := 15 } : State).sp.val = (15 : Fin 16).val ∧
    ({ start 0 with sp := 16 } : State).sp.val = 16 := by decide

theorem witness_ReturnUndoesCall :
    ({ start 0 with sp := 15 } : State).sp.val < 16 ∧
    ∃ t, exec (.call 0xFFF#12) { start 0 with sp := 15 } = .next t := ⟨by decide, _, rfl⟩

/-- Sums of 255 and 256; equal operands, and a minuend one less. -/
theorem witness_FlagsTellWrapping :
    (∃ t, exec (.addReg 0 1) ((start 0).setReg 0 255) = .next t ∧ t.v[15] = 0#8) ∧
    (∃ t, exec (.addReg 0 1) (((start 0).setReg 0 255).setReg 1 1) = .next t ∧ t.v[15] = 1#8) ∧
    (∃ t, exec (.sub 0 1) (start 0) = .next t ∧ t.v[15] = 1#8) ∧
    (∃ t, exec (.subn 0 1) ((start 0).setReg 0 1) = .next t ∧ t.v[15] = 0#8) :=
  ⟨⟨_, rfl, by decide⟩, ⟨_, rfl, by decide⟩, ⟨_, rfl, by decide⟩, ⟨_, rfl, by decide⟩⟩

theorem witness_BcdStoresThreeDigits :
    ((start 0x6A2B).setI 0xFFD).i.toNat + 2 ≤ 0xFFF ∧
    Memory.wf ((start 0x6A2B).setI 0xFFD).params.font ((start 0x6A2B).setI 0xFFD).mem = true ∧
    ((start 0x6A2B).setI 0xFFE).i.toNat + 2 > 0xFFF := by decide

theorem witness_StoreRegistersAtI :
    ((start 0x6A2B).setI 0xFF0).i.toNat + (15 : Reg).val ≤ 0xFFF ∧
    Memory.wf ((start 0x6A2B).setI 0xFF0).params.font ((start 0x6A2B).setI 0xFF0).mem = true ∧
    ((start 0x6A2B).setI 0xFF1).i.toNat + (15 : Reg).val > 0xFFF := by decide

theorem witness_LoadRegistersFromI :
    ((start 0).setI 0xFFF).i.toNat + (0 : Reg).val ≤ 0xFFF ∧ ((start 0).setI 0x1000).i.toNat + (0 : Reg).val > 0xFFF := by
  decide

/-- Each way an instruction fails, at the boundary: an empty stack, a full one, each of the four accesses one byte too
far, and key number 16. -/
theorem witness_InstructionsFailExactlyWhen :
    (start 0).exec ≠ .faulted ∧ (∃ t, exec .ret (start 0) = .next t ∧ t.exec = .faulted) ∧
    (∃ t, exec (.call 0#12) { start 0 with sp := 16 } = .next t ∧ t.exec = .faulted) ∧
    (∃ t, exec (.drw 0 0 1#4) ((start 0).setI 0x1000) = .next t ∧ t.exec = .faulted) ∧
    (∃ t, exec (.ldBVx 0) ((start 0).setI 0xFFE) = .next t ∧ t.exec = .faulted) ∧
    (∃ t, exec (.ldMemVx 15) ((start 0).setI 0xFF1) = .next t ∧ t.exec = .faulted) ∧
    (∃ t, exec (.ldVxMem 0) ((start 0).setI 0xFFFF) = .next t ∧ t.exec = .faulted) ∧
    (∃ t, exec (.skp 0) ((start 0).setReg 0 16) = .next t ∧ t.exec = .faulted) :=
  ⟨by decide, ⟨_, rfl, rfl⟩, ⟨_, rfl, rfl⟩, ⟨_, rfl, rfl⟩, ⟨_, rfl, rfl⟩, ⟨_, rfl, rfl⟩, ⟨_, rfl, rfl⟩, ⟨_, rfl, rfl⟩⟩

theorem witness_StoredBytesAreFetched :
    1 ≤ (1 : Reg).val ∧ ((start 0x6A2B).setI 0xFFE).i.toNat + (1 : Reg).val ≤ 0xFFF ∧
    Memory.wf ((start 0x6A2B).setI 0xFFE).params.font ((start 0x6A2B).setI 0xFFE).mem = true ∧
    ∃ t, exec (.ldMemVx 1) ((start 0x6A2B).setI 0xFFE) = .next t := ⟨by decide, by decide, by decide, _, rfl⟩

/-- No row at an `I` outside memory, and fifteen rows that end at the last byte. Both collision clauses: on a dark
display nothing collides, on a lit cell the bit does. -/
theorem witness_DrawInvertsCoveredCells :
    ((0 : Nibble).toNat = 0) ∧ ((start 0).setI 0xFF1).i.toNat + (15 : Nibble).toNat - 1 ≤ 0xFFF ∧
    (start 0).SpriteCovers 63 31 5 63 31 ∧ Frame.cell (start 0).fb 63 31 = false ∧
    Frame.cell ({ start 0 with fb := Frame.toggle Frame.blank 63 31 } : State).fb 63 31 = true ∧
    ((start 0).setI 0xFF2).i.toNat + (15 : Nibble).toNat - 1 > 0xFFF :=
  ⟨by decide, by decide, ⟨0, 0, by decide, by decide, by decide, by decide, by decide⟩, by decide, by decide, by decide⟩

theorem witness_DrawingTwiceRestoresTheDisplay :
    ((start 0).setI 0).i.toNat + (5 : Nibble).toNat - 1 ≤ 0xFFF ∧
    ∃ t u, exec (.drw 0 1 5#4) (start 0) = .next t ∧ exec (.drw 0 1 5#4) t = .next u :=
  ⟨by decide, _, _, rfl, rfl⟩

theorem witness_SpriteWrapsAtTheCorner :
    let s : State := (((start 0x6A2B).setI 0xFFE).setReg 0 63).setReg 1 31 |>.writeBytes 0xFFE [0xC0, 0xC0]
    s.i.toNat + 1 ≤ 0xFFF ∧ s.v[(0 : Reg)].toNat = 63 ∧ s.v[(1 : Reg)].toNat = 31 ∧
      s.readByte s.i.toNat = 0xC0 ∧ s.readByte (s.i.toNat + 1) = 0xC0 := by decide

theorem witness_KeySkipsTestTheSample :
    (start 0).v[(0 : Reg)].toNat = (0 : Key).val ∧ ((start 0).setReg 0 15).v[(0 : Reg)].toNat = (15 : Key).val ∧
    ((start 0).setReg 0 16).v[(0 : Reg)].toNat > 15 := by decide

theorem witness_TimerInstructions :
    ((start 0).setReg 0 1).v[(0 : Reg)].toNat ≥ 1 ∧ (start 0).v[(0 : Reg)].toNat = 0 ∧ (start 0).st.toNat = 0 ∧
    ({ start 0 with st := 1 } : State).st.toNat > 0 := by decide

end Sys2Proof.Tests
end

section
/-! The value of every element after reset (10_state.md R47), settled from what an address reads as that no write has
changed. -/

namespace Sys2Proof.Machine

variable {font : Font} {s : State} {a : Nat}

/-- `FONT` at `0x000`..`0x04F` (R47). -/
theorem fillByte_of_lt (h : a < 80) : fillByte font a = font[a] := dif_pos h

/-- `0x00` above the font (R47). -/
theorem fillByte_of_le (h : 80 ≤ a) : fillByte font a = 0 := dif_neg (Nat.not_lt.mpr h)

/-- While no write has changed memory, every address reads as its reset contents. -/
theorem readByte_of_mem_eq_nil (h : s.mem = []) : s.readByte a = fillByte s.params.font a := by
  simp [State.readByte, Memory.read, Memory.lookup, h]

/-- Settles O19: memory reads as the font and zeros because no cell is listed, an entry of `V`, `Stack` or a key sample
is the value its vector repeats, the display is the blank frame, and every other element is its field of
`State.reset`. -/
theorem resetValues : Obligations.ResetValues := by
  have hmem (a : Nat) : State.reset.readByte a = fillByte State.reset.params.font a := readByte_of_mem_eq_nil rfl
  have hv (x : Reg) : State.reset.v[x] = 0 := Vector.getElem_replicate x.isLt
  have hstack (j : Fin 16) : State.reset.stack[j] = 0 := Vector.getElem_replicate j.isLt
  have hcur (k : Key) : State.reset.keyCur[k] = false := Vector.getElem_replicate k.isLt
  have hprev (k : Key) : State.reset.keyPrev[k] = false := Vector.getElem_replicate k.isLt
  exact ⟨fun a h => (hmem a).trans (fillByte_of_lt h), fun a h => (hmem a).trans (fillByte_of_le h), hv, rfl, rfl, rfl,
    hstack, rfl, rfl, cell_blank, rfl, fun k => ⟨hcur k, hprev k⟩, rfl, rfl, rfl⟩

end Sys2Proof.Machine
end

section
/-! The decoder against the opcode map (30_encoding.md R114, R115, R116, R121). A word is the packing of its fields, so
it is the encoding of an instruction as soon as the fields that the instruction fixes have their values. Those values
come from the branch the decoder takes on one side, and from the mask and pattern of a row on the other. -/

namespace Sys2Proof

open Laws

variable {op w : Word} {t f : Nibble} {b : Byte}

/-! ## A word from the fields that are fixed in it -/

theorem packA_of_fields (ht : fieldT op = t) : packA t (fieldNNN op) = op := ht ▸ packA_fields op

theorem packXB_of_fields (ht : fieldT op = t) (hb : fieldNN op = b) : packXB t (fieldX op) b = op :=
  ht ▸ hb ▸ packXB_fields op

theorem packXY_of_fields (ht : fieldT op = t) (hf : fieldN op = f) : packXY t (fieldX op) (fieldY op) f = op :=
  ht ▸ hf ▸ packXY_fields op

/-! ## A word from the bits a row's mask leaves -/

theorem fieldT_of_mask_top (h : op &&& 0xF000#16 = packA t 0) : fieldT op = t := by
  rw [← packA_fields op, packA_mask] at h
  simpa using congrArg fieldT h

theorem packA_of_mask (h : op &&& 0xF000#16 = packA t 0) : packA t (fieldNNN op) = op :=
  packA_of_fields (fieldT_of_mask_top h)

theorem packXB_of_mask_top (h : op &&& 0xF000#16 = packA t 0) : packXB t (fieldX op) (fieldNN op) = op :=
  packXB_of_fields (fieldT_of_mask_top h) rfl

theorem packXY_of_mask_top (h : op &&& 0xF000#16 = packA t 0) : packXY t (fieldX op) (fieldY op) (fieldN op) = op :=
  packXY_of_fields (fieldT_of_mask_top h) rfl

theorem packXB_of_mask_low (h : op &&& 0xF0FF#16 = packXB t 0 b) : packXB t (fieldX op) b = op := by
  rw [← packXB_fields op, packXB_mask_low] at h
  exact packXB_of_fields (by simpa using congrArg fieldT h) (by simpa using congrArg fieldNN h)

theorem packXY_of_mask_low (h : op &&& 0xF00F#16 = packXY t 0 0 f) : packXY t (fieldX op) (fieldY op) f = op := by
  rw [← packXY_fields op, packXY_mask_low] at h
  exact packXY_of_fields (by simpa using congrArg fieldT h) (by simpa using congrArg fieldN h)

theorem eq_of_mask_all (h : op &&& 0xFFFF#16 = w) : w = op :=
  h.symm.trans BitVec.and_allOnes

/-! ## The rows of the map and the instructions -/

/-- A word that matches a row of the map is the encoding of an instruction: the row fixes `t` and the sub-opcode, the
word gives the operands. -/
theorem exists_encode_eq_of_selects :
    ∀ row ∈ opcodeTable, op &&& row.mask = row.pattern → ∃ i, encode i = op := by
  simp only [opcodeTable, List.cons_append, List.nil_append, List.forall_mem_cons]
  exact ⟨fun h => ⟨.cls, eq_of_mask_all h⟩, fun h => ⟨.ret, eq_of_mask_all h⟩,
    fun h => ⟨.jp _, packA_of_mask h⟩, fun h => ⟨.call _, packA_of_mask h⟩,
    fun h => ⟨.seImm _ _, packXB_of_mask_top h⟩, fun h => ⟨.sneImm _ _, packXB_of_mask_top h⟩,
    fun h => ⟨.seReg _ _, packXY_of_mask_low h⟩, fun h => ⟨.ldImm _ _, packXB_of_mask_top h⟩,
    fun h => ⟨.addImm _ _, packXB_of_mask_top h⟩, fun h => ⟨.ldReg _ _, packXY_of_mask_low h⟩,
    fun h => ⟨.orReg _ _, packXY_of_mask_low h⟩, fun h => ⟨.andReg _ _, packXY_of_mask_low h⟩,
    fun h => ⟨.xorReg _ _, packXY_of_mask_low h⟩, fun h => ⟨.addReg _ _, packXY_of_mask_low h⟩,
    fun h => ⟨.sub _ _, packXY_of_mask_low h⟩, fun h => ⟨.shr _ _, packXY_of_mask_low h⟩,
    fun h => ⟨.subn _ _, packXY_of_mask_low h⟩, fun h => ⟨.shl _ _, packXY_of_mask_low h⟩,
    fun h => ⟨.sneReg _ _, packXY_of_mask_low h⟩, fun h => ⟨.ldI _, packA_of_mask h⟩,
    fun h => ⟨.jpV0 _, packA_of_mask h⟩, fun h => ⟨.rnd _ _, packXB_of_mask_top h⟩,
    fun h => ⟨.drw _ _ _, packXY_of_mask_top h⟩, fun h => ⟨.skp _, packXB_of_mask_low h⟩,
    fun h => ⟨.sknp _, packXB_of_mask_low h⟩, fun h => ⟨.ldVxDt _, packXB_of_mask_low h⟩,
    fun h => ⟨.ldVxK _, packXB_of_mask_low h⟩, fun h => ⟨.ldDtVx _, packXB_of_mask_low h⟩,
    fun h => ⟨.ldStVx _, packXB_of_mask_low h⟩, fun h => ⟨.addIVx _, packXB_of_mask_low h⟩,
    fun h => ⟨.ldFVx _, packXB_of_mask_low h⟩, fun h => ⟨.ldBVx _, packXB_of_mask_low h⟩,
    fun h => ⟨.ldMemVx _, packXB_of_mask_low h⟩, fun h => ⟨.ldVxMem _, packXB_of_mask_low h⟩,
    fun _ h => absurd h List.not_mem_nil⟩

/-- Every instruction encodes into its own row (R115, R121). -/
theorem ownRow_all (i : Instr) : OwnRow.Statement i := by
  cases i
  exacts [OwnRow.cls, OwnRow.ret, OwnRow.jp .., OwnRow.call .., OwnRow.seImm .., OwnRow.sneImm ..,
    OwnRow.seReg .., OwnRow.ldImm .., OwnRow.addImm .., OwnRow.ldReg .., OwnRow.orReg .., OwnRow.andReg ..,
    OwnRow.xorReg .., OwnRow.addReg .., OwnRow.sub .., OwnRow.shr .., OwnRow.subn .., OwnRow.shl ..,
    OwnRow.sneReg .., OwnRow.ldI .., OwnRow.jpV0 .., OwnRow.rnd .., OwnRow.drw .., OwnRow.skp ..,
    OwnRow.sknp .., OwnRow.ldVxDt .., OwnRow.ldVxK .., OwnRow.ldDtVx .., OwnRow.ldStVx .., OwnRow.addIVx ..,
    OwnRow.ldFVx .., OwnRow.ldBVx .., OwnRow.ldMemVx .., OwnRow.ldVxMem ..]

/-! ## The decoder and the encoder -/

/-- The decoder reads back what the encoder packs: the fields of the packed word are the operands. -/
theorem decode_encode (i : Instr) : decode (encode i) = .ok i := by
  cases i with
  | cls => rfl
  | ret => rfl
  | _ => simp [encode, decode, decode8, decodeE, decodeF]

/-- A sound answer for `op`: an instruction that encodes to `op`, or the error that names `op` unknown. -/
def SoundAnswer (op : Word) : Except DecodeError Instr → Prop
  | .ok i => encode i = op
  | .error e => e = .unknown op

theorem decode0_sound (op : Word) : SoundAnswer op (decode0 op) := by
  unfold decode0
  split <;> rfl

theorem decode8_sound (ht : fieldT op = 0x8#4) : SoundAnswer op (decode8 op) := by
  unfold decode8
  split
  iterate 9 exact packXY_of_fields ht ‹_›
  rfl

theorem decodeE_sound (ht : fieldT op = 0xE#4) : SoundAnswer op (decodeE op) := by
  unfold decodeE
  split
  iterate 2 exact packXB_of_fields ht ‹_›
  rfl

theorem decodeF_sound (ht : fieldT op = 0xF#4) : SoundAnswer op (decodeF op) := by
  unfold decodeF
  split
  iterate 9 exact packXB_of_fields ht ‹_›
  rfl

/-- What the decoder can answer, family by family (R114, R116). -/
theorem decode_sound (op : Word) : SoundAnswer op (decode op) := by
  unfold decode
  split
  · exact decode0_sound op
  · exact packA_of_fields ‹_›
  · exact packA_of_fields ‹_›
  · exact packXB_of_fields ‹_› rfl
  · exact packXB_of_fields ‹_› rfl
  · split
    · exact packXY_of_fields ‹_› ‹_›
    · rfl
  · exact packXB_of_fields ‹_› rfl
  · exact packXB_of_fields ‹_› rfl
  · exact decode8_sound ‹_›
  · split
    · exact packXY_of_fields ‹_› ‹_›
    · rfl
  · exact packA_of_fields ‹_›
  · exact packA_of_fields ‹_›
  · exact packXB_of_fields ‹_› rfl
  · exact packXY_of_fields ‹_› rfl
  · exact decodeE_sound ‹_›
  · have ht : fieldT op = 0xF#4 := by
      simp only [imp_false] at *
      bv_omega
    exact decodeF_sound ht

theorem encode_eq_of_decode {i : Instr} (h : decode op = .ok i) : encode i = op := by
  have hs := decode_sound op
  rwa [h] at hs

theorem decode_eq_unknown_of_not_ok (h : ¬∃ i, decode op = .ok i) : decode op = .error (.unknown op) := by
  have hs := decode_sound op
  cases hd : decode op with
  | ok i => exact absurd ⟨i, hd⟩ h
  | error e =>
    rw [hd] at hs
    exact congrArg Except.error hs

/-- A word that decodes matches the row of its instruction, because it is the encoding of that instruction. -/
theorem row_selects_of_decode {i : Instr} (h : decode op = .ok i) : op &&& i.row.mask = i.row.pattern := by
  rw [← encode_eq_of_decode h]
  exact eq_of_beq (ownRow_all i).2

/-- A word that matches a row decodes, because it is the encoding of an instruction. -/
theorem exists_decode_of_selects {row : OpcodeRow} (hrow : row ∈ opcodeTable) (h : op &&& row.mask = row.pattern) :
    ∃ i, decode op = .ok i := by
  obtain ⟨i, rfl⟩ := exists_encode_eq_of_selects row hrow h
  exact ⟨i, decode_encode i⟩

/-- Settles O4: a word decodes exactly when it is the encoding of an instruction, and the encodings are exactly the
words that match a row; a word that does not decode is unknown. -/
theorem decodeMatchesOpcodeMap : Obligations.DecodeMatchesOpcodeMap := by
  intro op
  have hdec : (∃ i, decode op = .ok i) ↔ ∃ row ∈ opcodeTable, op &&& row.mask = row.pattern :=
    ⟨fun ⟨i, hi⟩ => ⟨i.row, (ownRow_all i).1, row_selects_of_decode hi⟩,
      fun ⟨_, hrow, h⟩ => exists_decode_of_selects hrow h⟩
  exact ⟨hdec, fun _ => row_selects_of_decode, fun hno => decode_eq_unknown_of_not_ok (mt hdec.1 hno)⟩

end Sys2Proof
end

section
/-! The cycle outside dispatch: where it can fetch, what it does while it waits for a key and once the core has failed
(40_cycle.md R156, R166, R167; 45_keypad.md R366, R367). -/

namespace Sys2Proof.Machine

variable {s s0 : State} {keys : Vector Bool 16} {rand : Byte}

/-! ## A step that takes a cycle -/

/-- Taking the operation changes the queue and the draw counter only, so the core is as before (R160). -/
theorem State.TakesCycle.frame (h : s.TakesCycle keys rand s0) :
    s0 = { s with hostOps := s0.hostOps, draws := s0.draws } := by
  obtain ⟨_, ops, n, rfl⟩ := step_of_takesCycle h
  rfl

theorem State.TakesCycle.exec_eq (h : s.TakesCycle keys rand s0) : s0.exec = s.exec := by rw [h.frame]

theorem State.TakesCycle.pc_eq (h : s.TakesCycle keys rand s0) : s0.pc = s.pc := by rw [h.frame]

theorem State.TakesCycle.v_eq (h : s.TakesCycle keys rand s0) : s0.v = s.v := by rw [h.frame]

theorem State.TakesCycle.waitReg_eq (h : s.TakesCycle keys rand s0) : s0.waitReg = s.waitReg := by rw [h.frame]

theorem State.TakesCycle.keyCur_eq (h : s.TakesCycle keys rand s0) : s0.keyCur = s.keyCur := by rw [h.frame]

theorem State.TakesCycle.fault_eq (h : s.TakesCycle keys rand s0) : s0.fault = s.fault := by rw [h.frame]

theorem step_running (h : s.TakesCycle keys rand s0) (hrun : s.exec = .running) : step s = s0.runCycle keys rand :=
  (step_of_takesCycle h).1.trans (cycle_running (h.exec_eq.trans hrun) keys rand)

theorem step_waiting (h : s.TakesCycle keys rand s0) (hwait : s.exec = .waitingForKey) :
    step s = .next (s0.waitCycle keys) :=
  (step_of_takesCycle h).1.trans (cycle_waiting (h.exec_eq.trans hwait) keys rand)

theorem step_faulted (h : s.TakesCycle keys rand s0) (hfault : s.exec = .faulted) : step s = .next s0.abortCycle :=
  (step_of_takesCycle h).1.trans (cycle_faulted (h.exec_eq.trans hfault) keys rand)

/-! ## The fetch -/

/-- The fetchable addresses (R156): an even address with `a + 1 <= 0xFFE` is at most `0xFFC`. -/
theorem fetchOK_iff (a : Word) : fetchOK a = true ↔ a.toNat % 2 = 0 ∧ 0x200 ≤ a.toNat ∧ a.toNat ≤ 0xFFC := by
  simp only [fetchOK, Bool.and_eq_true, decide_eq_true_eq]
  omega

/-- A cycle whose fetch is refused fails with `InvalidPC` before `PC` changes (R156). -/
theorem runCycle_of_not_fetchOK (h : ¬fetchOK s.pc = true) :
    s.runCycle keys rand = .next ((s.beginCycle keys rand).enterFault (invalidPCRecord s.pc)).abortCycle := by
  rcases runCycle_cases s keys rand with ⟨_, hrun⟩ | ⟨hok, _⟩
  · exact hrun
  · exact absurd hok h

/-- Settles O9: the three ways to miss `FetchOK` leave an address that is not fetchable, and the cycle there is the
failed fetch of the sampled state. -/
theorem unfetchablePcIsInvalidPC : Obligations.UnfetchablePcIsInvalidPC := by
  refine ⟨fetchOK_iff, fun s s0 keys rand htakes hrun hpc => ?_⟩
  rw [← htakes.pc_eq] at hpc ⊢
  have hbad : ¬fetchOK s0.pc = true := by
    rw [fetchOK_iff]
    omega
  rw [← htakes.keyCur_eq, step_running htakes hrun, runCycle_of_not_fetchOK hbad]
  rfl

/-! ## The key wait -/

/-- `transitionedDown(k)` compares the two samples (R362). -/
theorem transitionedDown_iff (s : State) (k : Key) : s.transitionedDown k = true ↔ KeyEdge s.keyPrev s.keyCur k := by
  simp [State.transitionedDown, KeyEdge]

/-- The scan looks at key `n` in place `n` (R366). -/
theorem keyOrder_eq_finRange : keyOrder = List.finRange 16 := by decide

theorem firstKeyDown_eq_none (h : ∀ k, ¬KeyEdge s.keyPrev s.keyCur k) : s.firstKeyDown = none :=
  List.find?_eq_none.mpr fun k _ => mt (transitionedDown_iff s k).mp (h k)

/-- The scan finds the key with a down edge that has none below it (R366). -/
theorem firstKeyDown_eq_some {k : Key} (hk : KeyEdge s.keyPrev s.keyCur k)
    (hlow : ∀ j, j < k → ¬KeyEdge s.keyPrev s.keyCur j) : s.firstKeyDown = some k := by
  rw [State.firstKeyDown, keyOrder_eq_finRange, List.find?_eq_some_iff_getElem]
  refine ⟨(transitionedDown_iff s k).mpr hk, k.val, by simp, by simp, fun j hj => ?_⟩
  have hno : ¬s.transitionedDown ⟨j, by omega⟩ = true := mt (transitionedDown_iff s _).mp (hlow _ hj)
  simpa using hno

/-- A waiting cycle scans after it has sampled, so it looks for the edges between the old and the new sample. -/
theorem waitCycle_of_no_edge (h : ∀ k, ¬KeyEdge s.keyCur keys k) :
    s.waitCycle keys = { s.sample keys with status := .ok, events := [] } := by
  have hscan := firstKeyDown_eq_none (s := { s.sample keys with status := .ok, events := [] }) h
  simp only [State.waitCycle, hscan]

theorem waitCycle_of_lowest_edge {k : Key} (hk : KeyEdge s.keyCur keys k)
    (hlow : ∀ j, j < k → ¬KeyEdge s.keyCur keys j) :
    s.waitCycle keys = State.resolveWait { s.sample keys with status := .ok, events := [] } k := by
  have hscan := firstKeyDown_eq_some (s := { s.sample keys with status := .ok, events := [] }) hk hlow
  simp only [State.waitCycle, hscan]

/-- Settles O12: the scan of the waiting cycle finds no key, or the lowest one with a down edge. -/
theorem waitingCycleTakesLowestEdge : Obligations.WaitingCycleTakesLowestEdge := by
  intro s s0 keys rand htakes hwait
  simp only [← htakes.keyCur_eq, ← htakes.v_eq, ← htakes.waitReg_eq, step_waiting htakes hwait]
  exact ⟨fun hnone => congrArg _ (waitCycle_of_no_edge hnone),
    fun k hk hlow => congrArg _ (waitCycle_of_lowest_edge hk hlow)⟩

/-! ## After a failure -/

/-- Settles O14: the cycle in `Faulted` is only its result, the recorded error and no event. -/
theorem faultedCycleChangesNothing : Obligations.FaultedCycleChangesNothing := by
  intro s s0 keys rand htakes hfault
  rw [← htakes.fault_eq, step_faulted htakes hfault]
  rfl

end Sys2Proof.Machine
end

section
/-! The other host operations: `load_program`, `timer_tick` and `ack_draw`, one equation per case (40_cycle.md R162 to
R164), and the tick in numbers (46_timers.md R390, R397). -/

namespace Sys2Proof.Machine

variable {s : State} {rom : List Byte}

/-- A step takes the pending operation off the queue and performs it (R160). -/
theorem step_of_hostOps {op : HostOp} {ops : List HostOp} (h : s.hostOps = op :: ops) :
    step s = State.runHostOp { s with hostOps := ops } op := by
  simp only [step, State.hostStep, h]

/-- Settles O23: `ack_draw` is the write of the flag. -/
theorem ackDrawClearsOnlyTheFlag : Obligations.AckDrawClearsOnlyTheFlag :=
  fun _ _ hop => step_of_hostOps hop

/-! ## `load_program` (R162) -/

theorem loadProgram_faulted (s : State) (h : s.exec = .faulted) : s.loadProgram rom = s.abortCycle := by
  unfold State.loadProgram
  split
  · rfl
  · contradiction

theorem loadProgram_tooLarge (s : State) (h : s.exec ≠ .faulted) (hlen : Config.maxRomBytes < rom.length) :
    s.loadProgram rom =
      (s.enterFault { kind := .romTooLarge, opcode := none, pc := s.pc, addr := none }).abortCycle := by
  unfold State.loadProgram
  split
  · contradiction
  · exact if_pos (Nat.add_lt_add_right hlen 0x200)

theorem loadProgram_fits (s : State) (h : s.exec ≠ .faulted) (hlen : rom.length ≤ Config.maxRomBytes) :
    s.loadProgram rom = { s.writeBytes Config.programBase rom with status := .ok, events := [] } := by
  unfold State.loadProgram
  split
  · contradiction
  · exact if_neg (Nat.not_lt.mpr (Nat.add_le_add_right hlen 0x200))

/-- Settles O21: the three cases of `load_program`; a ROM that fits ends inside the address space, so that its bytes
read as written and the others as before. -/
theorem loadProgramCopiesOrFails : Obligations.LoadProgramCopiesOrFails := by
  intro s rom ops hop
  rw [step_of_hostOps hop]
  refine ⟨fun hfault => congrArg _ (loadProgram_faulted { s with hostOps := ops } hfault),
    fun hlive hlong => congrArg _ (loadProgram_tooLarge { s with hostOps := ops } hlive hlong),
    fun hlive hfits hwf => ?_⟩
  have hend : 0x200 + rom.length ≤ Config.memSize := Nat.add_le_add_left hfits 0x200
  exact ⟨_, congrArg _ (loadProgram_fits { s with hostOps := ops } hlive hfits), rfl,
    fun k hk => readByte_writeBytes_inside s 0x200 k rom hwf hend hk,
    fun a ha => readByte_writeBytes_outside s 0x200 a rom ha⟩

/-! ## The tick (46_timers.md R390, R397) and `timer_tick` (R163) -/

theorem countDown_toNat (t : Byte) : (countDown t).toNat = t.toNat - 1 := by
  unfold countDown
  split
  · simp [*]
  · bv_omega

/-- The event of a tick in the number that `ST` holds. -/
theorem tick_events_toNat (s : State) :
    s.tick.events = s.events ++ if s.st.toNat = 1 then [.audioOff] else [] := by
  have hst : s.st.toNat = 1 ↔ s.st = 1 := BitVec.toNat_inj (y := 1)
  simp only [tick_events, hst]
  split <;> simp

theorem timerTick_coupled (h : s.params.timerCoupling = .coupled) :
    s.timerTick = .refused .timerTickUnderCoupled := by
  simp only [State.timerTick, h]

theorem timerTick_faulted (h : s.params.timerCoupling = .decoupled) (hfault : s.exec = .faulted) :
    s.timerTick = .next { s with events := [] } := by
  simp only [State.timerTick, h, hfault]

theorem timerTick_live (h : s.params.timerCoupling = .decoupled) (hlive : s.exec ≠ .faulted) :
    s.timerTick = .next (State.tick { s with events := [] }) := by
  simp only [State.timerTick, h]

/-- Settles O22: `timer_tick` is refused, or answers an empty event list, or is the tick of a state with no event
pending. -/
theorem timerTickByCoupling : Obligations.TimerTickByCoupling := by
  intro s ops hop
  have hstep := step_of_hostOps hop
  exact ⟨fun hc => hstep.trans (timerTick_coupled hc), fun hd hfault => hstep.trans (timerTick_faulted hd hfault),
    fun hd hlive => ⟨_, hstep.trans (timerTick_live hd hlive), rfl, countDown_toNat s.dt, countDown_toNat s.st,
      tick_events_toNat _⟩⟩

end Sys2Proof.Machine
end

section
/-! Control flow (41_control_flow.md R190 to R198): the call stack by the number `SP` holds, the target of a jump in
numbers, and a skip by the numbers it compares. -/

namespace Sys2Proof.Machine

variable {s : State}

/-! ## The call stack at a known `SP` (10_state.md R38) -/

theorem push_at {j : Fin 16} (w : Word) (h : s.sp.val = j.val) :
    s.push w = some { s with stack := s.stack.set j.val w, sp := ⟨j.val + 1, by omega⟩ } := by
  obtain ⟨_, hpush⟩ | ⟨hfull, _⟩ := push_cases s w
  · simpa only [h] using hpush
  · omega

theorem push_full (w : Word) (h : s.sp.val = 16) : s.push w = none := by
  obtain ⟨hlt, _⟩ | ⟨_, hpush⟩ := push_cases s w
  · omega
  · exact hpush

theorem pop_at {j : Fin 16} (h : s.sp.val = j.val + 1) :
    s.pop = some (s.stack[j], { s with sp := ⟨j.val, by omega⟩ }) := by
  obtain ⟨k, hk, hpop⟩ | ⟨hempty, _⟩ := pop_cases s
  · obtain rfl : k = j := Fin.ext (by omega)
    exact hpop
  · omega

theorem pop_empty (h : s.sp.val = 0) : s.pop = none := by
  obtain ⟨_, hk, _⟩ | ⟨_, hpop⟩ := pop_cases s
  · omega
  · exact hpop

/-! ## `CALL` and `RET` (R190, R192) -/

theorem exec_call_at {j : Fin 16} (nnn : Addr12) (h : s.sp.val = j.val) :
    exec (.call nnn) s = .next { s with
      pc := zextAddr nnn, sp := ⟨j.val + 1, by omega⟩, stack := s.stack.set j.val s.pc } := by
  simp only [exec, execCall, push_at s.pc h, State.jump]

/-- The opcode in the record of a failed `CALL`. -/
theorem encode_call (nnn : Addr12) : encode (.call nnn) = BitVec.ofNat 16 (0x2000 + nnn.toNat) := by
  have hval : (encode (.call nnn)).toNat = 0x2000 + nnn.toNat := packA_toNat 0x2#4 nnn
  rw [← hval, BitVec.ofNat_toNat, BitVec.setWidth_eq]

theorem exec_call_full (nnn : Addr12) (h : s.sp.val = 16) :
    exec (.call nnn) s = raise .stackOverflow (.call nnn) none s := by
  simp only [exec, execCall, push_full s.pc h]

theorem exec_ret_at {j : Fin 16} (h : s.sp.val = j.val + 1) :
    exec .ret s = .next { s with sp := ⟨j.val, by omega⟩, pc := s.stack[j] } := by
  simp only [exec, execRet, pop_at h, State.jump]

theorem exec_ret_empty (h : s.sp.val = 0) : exec .ret s = raise .stackUnderflow .ret none s := by
  simp only [exec, execRet, pop_empty h]

/-! ## Jump targets in numbers (R191, R197) -/

@[simp] theorem zextAddr_toNat (nnn : Addr12) : (zextAddr nnn).toNat = nnn.toNat :=
  BitVec.toNat_setWidth_of_le (by decide)

@[simp] theorem zextByte_toNat (b : Byte) : (zextByte b).toNat = b.toNat :=
  BitVec.toNat_setWidth_of_le (by decide)

/-- "It is at most `0xFF + 0xFFF = 0x10FE`" (R197). -/
theorem byte_add_addr_le (b : Byte) (nnn : Addr12) : b.toNat + nnn.toNat ≤ 0x10FE := by
  omega

/-- The sum of R197 never wraps. -/
theorem zextByte_add_zextAddr_toNat (b : Byte) (nnn : Addr12) :
    (zextByte b + zextAddr nnn).toNat = b.toNat + nnn.toNat := by
  have hle := byte_add_addr_le b nnn
  have hfits : (zextByte b).toNat + (zextAddr nnn).toNat < 2 ^ 16 := by
    simp only [zextByte_toNat, zextAddr_toNat]
    omega
  rw [BitVec.toNat_add_of_lt hfits, zextByte_toNat, zextAddr_toNat]

/-! ## A skip by the numbers it compares (R193 to R196) -/

theorem skipIf_beq (s : State) (a b : Byte) :
    s.skipIf (a == b) = { s with pc := if a.toNat = b.toNat then s.pc + 2 else s.pc } := by
  simp only [State.skipIf, beq_iff_eq, BitVec.toNat_inj]

theorem skipIf_bne (s : State) (a b : Byte) :
    s.skipIf (a != b) = { s with pc := if a.toNat = b.toNat then s.pc else s.pc + 2 } := by
  simp only [State.skipIf, bne_iff_ne, BitVec.toNat_inj, ite_not]

/-! ## The obligations -/

/-- Settles O36: with a free slot `CALL` is one write to that slot, and on a full stack it is `raise`. -/
theorem callPushesOrOverflows : Obligations.CallPushesOrOverflows := by
  refine fun s nnn => ⟨rfl, fun j hj => ⟨_, exec_call_at nnn hj, rfl, zextAddr_toNat nnn, ?_, fun k hk => ?_⟩,
    fun hfull => ?_⟩
  · exact Vector.getElem_set_self j.isLt
  · exact Vector.getElem_set_ne j.isLt k.isLt fun h => hk (Fin.ext h.symm)
  · rw [← encode_call]
    exact exec_call_full nnn hfull

/-- Settles O35: `RET` is the pop above an empty stack, and `raise` on an empty one. -/
theorem returnPopsOrUnderflows : Obligations.ReturnPopsOrUnderflows :=
  ⟨rfl, fun _ => ⟨fun _ => exec_ret_at, exec_ret_empty⟩⟩

/-- Settles O38: both jumps are the write of `PC`, and the sum of `Bnnn` fits 16 bits. -/
theorem jumpsWriteTheTarget : Obligations.JumpsWriteTheTarget := by
  intro s nnn
  have hsum := zextByte_add_zextAddr_toNat (s.reg 0) nnn
  exact ⟨rfl, rfl, ⟨_, rfl, rfl, zextAddr_toNat nnn⟩,
    ⟨_, rfl, rfl, hsum, hsum.trans_le (byte_add_addr_le (s.reg 0) nnn)⟩⟩

/-- Settles O39: each skip is `skipIf` on an equality test or on its negation. -/
theorem skipsTestAndAddTwo : Obligations.SkipsTestAndAddTwo := fun s x y nn =>
  ⟨rfl, rfl, rfl, rfl, congrArg _ (skipIf_beq s (s.reg x) nn), congrArg _ (skipIf_bne s (s.reg x) nn),
    congrArg _ (skipIf_beq s (s.reg x) (s.reg y)), congrArg _ (skipIf_bne s (s.reg x) (s.reg y))⟩

end Sys2Proof.Machine
end

section
/-! Register arithmetic and logic (42_alu.md R230 to R245): what a write of one register and `WriteRF` leave, each
result and flag in numbers, and when a result wrapped. -/

namespace Sys2Proof.Machine

variable {s : State} {x : Reg}

/-! ## One register written (R232 to R237, R243) -/

theorem setReg_v_same (s : State) (x : Reg) (b : Byte) : (s.setReg x b).v[x] = b := reg_setReg_same s x b

theorem setReg_v_other (s : State) (x : Reg) (b : Byte) (z : Reg) (hz : z ≠ x) : (s.setReg x b).v[z] = s.v[z] :=
  reg_setReg_other s b hz

/-! ## Results in numbers (R238 to R242) -/

theorem addResult_toNat (a b : Byte) : (addResult a b).toNat = (a.toNat + b.toNat) % 256 := BitVec.toNat_ofNat ..

theorem subResult_toNat (a b : Byte) : (subResult a b).toNat = (((a.toNat : Int) - b.toNat) % 256).toNat :=
  BitVec.toNat_ofInt ..

theorem shrResult_toNat (a : Byte) : (shrResult a).toNat = a.toNat / 2 := by
  rw [shrResult, BitVec.toNat_ushiftRight, Nat.shiftRight_eq_div_pow, pow_one]

theorem shlResult_toNat (a : Byte) : (shlResult a).toNat = a.toNat * 2 % 256 := by
  rw [shlResult, BitVec.toNat_shiftLeft, Nat.shiftLeft_eq, pow_one]

/-! ## Flags in numbers (R238 to R242) -/

theorem flagByte_decide_toNat (p : Prop) [Decidable p] : (flagByte (decide p)).toNat = if p then 1 else 0 := by
  by_cases hp : p <;> simp [flagByte, hp]

theorem carryFlag_toNat (a b : Byte) : (flagByte (carryFlag a b)).toNat = if a.toNat + b.toNat > 255 then 1 else 0 :=
  flagByte_decide_toNat _

theorem noBorrowFlag_toNat (a b : Byte) : (flagByte (noBorrowFlag a b)).toNat = if a.toNat ≥ b.toNat then 1 else 0 :=
  flagByte_decide_toNat _

/-- A bit as a flag is the bit as a number. -/
theorem flagByte_getLsbD_toNat (a : Byte) (i : Nat) : (flagByte (a.getLsbD i)).toNat = a.toNat / 2 ^ i % 2 := by
  rw [← BitVec.testBit_toNat, Nat.testBit_eq_decide_div_mod_eq, flagByte_decide_toNat]
  split <;> omega

theorem shrFlag_toNat (a : Byte) : (flagByte (shrFlag a)).toNat = a.toNat % 2 := by
  rw [shrFlag, flagByte_getLsbD_toNat, pow_zero, Nat.div_one]

/-- The bit above the other seven is the quotient by 128. -/
theorem shlFlag_toNat (a : Byte) : (flagByte (shlFlag a)).toNat = a.toNat / 128 := by
  rw [shlFlag, flagByte_getLsbD_toNat]
  omega

/-! ## `WriteRF` (R231) -/

theorem writeRF_flagLast (r : Byte) (f : Bool) (h : s.params.flagOrder = .flagLast) :
    s.writeRF regF r f = s.setReg regF (flagByte f) := by
  simp only [State.writeRF, h, if_true]

theorem writeRF_resultLast (r : Byte) (f : Bool) (h : s.params.flagOrder = .resultLast) :
    s.writeRF regF r f = s.setReg regF r := by
  simp only [State.writeRF, h, if_true]

/-- `writeRF` meets the statements' account of `WriteRF` for every order of the two writes. -/
theorem flagWrite_writeRF {r : Byte} {f : Bool} {rn fn : Nat} (hr : r.toNat = rn) (hf : (flagByte f).toNat = fn) :
    FlagWrite s (s.writeRF x r f) x rn fn := by
  subst hr hf
  refine ⟨writeRF_frame .., fun y hyx hyF => writeRF_other s r f hyx hyF, fun hx => ?_, ?_, ?_⟩
  · exact ⟨congrArg BitVec.toNat (writeRF_result s r f hx), congrArg BitVec.toNat (writeRF_flag s r f hx),
      writeRF_draws s r f (.inl hx)⟩
  · rintro rfl horder
    rw [writeRF_flagLast r f horder]
    exact ⟨congrArg BitVec.toNat (setReg_v_same ..), rfl⟩
  · rintro rfl horder
    rw [writeRF_resultLast r f horder]
    exact ⟨congrArg BitVec.toNat (setReg_v_same ..), rfl⟩

/-! ## When a result wrapped (R245) -/

theorem flagByte_eq_one_iff (f : Bool) : flagByte f = 1 ↔ f = true := by
  cases f <;> decide

theorem writeRF_flag_eq_one_iff (r : Byte) (f : Bool) (hx : x ≠ regF) :
    (s.writeRF x r f).v[regF] = 1 ↔ f = true :=
  (writeRF_flag s r f hx).congr_left.trans (flagByte_eq_one_iff f)

theorem carryFlag_iff (a b : Byte) : carryFlag a b = true ↔ a.toNat + b.toNat ≥ 256 := decide_eq_true_iff

/-- There is no borrow exactly when narrowing the difference to a byte loses nothing. -/
theorem noBorrowFlag_iff_subResult_eq (a b : Byte) :
    noBorrowFlag a b = true ↔ ((subResult a b).toNat : Int) = (a.toNat : Int) - b.toNat := by
  rw [noBorrowFlag, decide_eq_true_iff, subResult_toNat]
  omega

/-- Both subtractions: the flag that `WriteRF` leaves tells whether the result it leaves is the exact difference. -/
theorem writeRF_sub_flag_iff (a b : Byte) (hx : x ≠ regF) :
    (s.writeRF x (subResult a b) (noBorrowFlag a b)).v[regF] = 1 ↔
      ((s.writeRF x (subResult a b) (noBorrowFlag a b)).v[x].toNat : Int) = (a.toNat : Int) - b.toNat := by
  have hresult : (s.writeRF x (subResult a b) (noBorrowFlag a b)).v[x] = subResult a b := writeRF_result s _ _ hx
  rw [writeRF_flag_eq_one_iff _ _ hx, hresult, noBorrowFlag_iff_subResult_eq]

/-! ## The obligations -/

/-- Settles O42: `8xy4` is `WriteRF` of the narrowed sum and the carry. -/
theorem addSetsCarry : Obligations.AddSetsCarry := fun _ _ _ =>
  ⟨rfl, _, rfl, flagWrite_writeRF (addResult_toNat ..) (carryFlag_toNat ..)⟩

/-- Settles O43: both subtractions are `WriteRF` of the narrowed difference and the no-borrow flag. -/
theorem subtractionsSetNoBorrow : Obligations.SubtractionsSetNoBorrow := fun _ _ _ =>
  ⟨rfl, rfl, ⟨_, rfl, flagWrite_writeRF (subResult_toNat ..) (noBorrowFlag_toNat ..)⟩,
    ⟨_, rfl, flagWrite_writeRF (subResult_toNat ..) (noBorrowFlag_toNat ..)⟩⟩

/-- Settles O44: both shifts are `WriteRF` of the shifted `Vx` and the bit that left it. -/
theorem shiftsSetTheBitShiftedOut : Obligations.ShiftsSetTheBitShiftedOut := fun _ _ _ =>
  ⟨rfl, rfl, ⟨_, rfl, flagWrite_writeRF (shrResult_toNat _) (shrFlag_toNat _)⟩,
    ⟨_, rfl, flagWrite_writeRF (shlResult_toNat _) (shlFlag_toNat _)⟩⟩

/-- Settles O45: away from `VF`, the flag is the carry or the no-borrow bit of the old values. -/
theorem flagsTellWrapping : Obligations.FlagsTellWrapping := by
  intro s t x y hx
  refine ⟨?_, ?_, ?_⟩
  · rintro ⟨⟩
    exact (writeRF_flag_eq_one_iff _ _ hx).trans (carryFlag_iff ..)
  · rintro ⟨⟩
    exact writeRF_sub_flag_iff (s.reg x) (s.reg y) hx
  · rintro ⟨⟩
    exact writeRF_sub_flag_iff (s.reg y) (s.reg x) hx

/-- Settles O40: each of the four is one `setReg` of `Vx`. -/
theorem registerLoadsWriteOneRegister : Obligations.RegisterLoadsWriteOneRegister := by
  refine fun s x y nn => ⟨rfl, rfl, rfl, rfl, ⟨_, rfl, rfl, setReg_v_same .., setReg_v_other s x _⟩,
    ⟨_, rfl, rfl, ?_, setReg_v_other s x _⟩, ⟨_, rfl, rfl, setReg_v_same .., setReg_v_other s x _⟩,
    ⟨_, rfl, rfl, fun j _ => ?_, setReg_v_other s x _⟩⟩
  · rw [setReg_v_same]
    exact addResult_toNat (s.reg x) nn
  · rw [setReg_v_same]
    exact BitVec.getLsbD_and

/-- Settles O41: each of the three is one `setReg` of `Vx`, and the library gives its bits. -/
theorem bitwiseOperationsWriteOneRegister : Obligations.BitwiseOperationsWriteOneRegister := by
  refine fun s x y => ⟨rfl, rfl, rfl, ⟨_, rfl, rfl, fun j _ => ?_, setReg_v_other s x _⟩,
    ⟨_, rfl, rfl, fun j _ => ?_, setReg_v_other s x _⟩, ⟨_, rfl, rfl, fun j _ => ?_, setReg_v_other s x _⟩⟩
  · rw [setReg_v_same]
    exact BitVec.getLsbD_or
  · rw [setReg_v_same]
    exact BitVec.getLsbD_and
  · rw [setReg_v_same]
    exact BitVec.getLsbD_xor

end Sys2Proof.Machine
end

section
/-! The index register and the transfers at `I` (43_index_memory.md R280 to R286): the sums of `I` in numbers, an access
of `n + 1` bytes inside memory and outside it, and the registers after a block load. -/

namespace Sys2Proof.Machine

variable {s : State} {x : Reg} {n : Nat} {vs : List Byte}

/-! ## The writes of `I` in numbers (R281, R282) -/

theorem add_zextByte_toNat (w : Word) (b : Byte) : (w + zextByte b).toNat = (w.toNat + b.toNat) % 65536 := by
  rw [BitVec.toNat_add, zextByte_toNat]

/-- The product of R282 never wraps. -/
theorem zextByte_mul_five_toNat (b : Byte) : (zextByte b * 5).toNat = b.toNat * 5 := by
  have hfits : (zextByte b).toNat * (5 : Word).toNat < 2 ^ 16 := by
    rw [zextByte_toNat]
    exact (Nat.mul_lt_mul_of_pos_right b.isLt (by decide)).trans (by decide)
  rw [BitVec.toNat_mul_of_lt hfits, zextByte_toNat]
  rfl

/-- Settles O46: each of the three is one write of `I`. -/
theorem indexRegisterWrites : Obligations.IndexRegisterWrites := fun s x nnn =>
  ⟨rfl, rfl, rfl, ⟨_, rfl, rfl, zextAddr_toNat nnn⟩, ⟨_, rfl, rfl, add_zextByte_toNat s.i (s.reg x)⟩,
    ⟨_, rfl, rfl, zextByte_mul_five_toNat (s.reg x)⟩⟩

/-! ## An access of `n + 1` bytes at `I` (20_memory.md R83) -/

/-- An access that is not empty is in bounds when its last byte is. -/
theorem inBounds_succ_iff (a n : Nat) : inBounds a (n + 1) = true ↔ a + n ≤ 0xFFF := by
  rw [inBounds_iff, Config.memSize]
  omega

theorem storeAtI_inside (hlen : vs.length = n + 1) (h : s.i.toNat + n ≤ 0xFFF) :
    s.storeAtI vs = some (s.writeBytes s.i.toNat vs) :=
  if_pos (hlen ▸ (inBounds_succ_iff ..).mpr h)

theorem storeAtI_outside (hlen : vs.length = n + 1) (h : s.i.toNat + n > 0xFFF) : s.storeAtI vs = none :=
  if_neg (hlen ▸ mt (inBounds_succ_iff ..).mp (Nat.not_le.mpr h))

theorem bytesAtI_inside (h : s.i.toNat + n ≤ 0xFFF) : s.bytesAtI (n + 1) = some (s.readBytes s.i.toNat (n + 1)) :=
  if_pos ((inBounds_succ_iff ..).mpr h)

theorem bytesAtI_outside (h : s.i.toNat + n > 0xFFF) : s.bytesAtI (n + 1) = none :=
  if_neg (mt (inBounds_succ_iff ..).mp (Nat.not_le.mpr h))

/-- The record of an access that leaves memory, for the `Fx` instruction whose low byte is `b` (60_exceptions.md R422,
R427). -/
theorem raise_memoryOutOfBounds_familyF {i : Instr} {b : Byte} (hi : encode i = packXB 0xF#4 x b) (s : State) :
    raise .memoryOutOfBounds i (some (outOfBoundsAddr s.i.toNat)) s = .next { s with
      exec := .faulted,
      fault := some { kind := .memoryOutOfBounds, opcode := some (BitVec.ofNat 16 (0xF000 + b.toNat + x.val * 256)),
                      pc := s.pc - 2, addr := some (max s.i.toNat 0x1000) } } := by
  have hop : (encode i).toNat = 0xF000 + b.toNat + x.val * 256 := by
    rw [hi, packXB_toNat, Nat.add_right_comm]
    rfl
  rw [← hop, BitVec.ofNat_toNat, BitVec.setWidth_eq]
  rfl

/-! ## `Fx33` (R283) -/

theorem exec_ldBVx_inside (h : s.i.toNat + 2 ≤ 0xFFF) :
    exec (.ldBVx x) s = .next (s.writeBytes s.i.toNat (bcdDigits (s.reg x))) := by
  simp only [exec, execLdBVx, storeAtI_inside (vs := bcdDigits (s.reg x)) rfl h]

theorem exec_ldBVx_outside (h : s.i.toNat + 2 > 0xFFF) :
    exec (.ldBVx x) s = raise .memoryOutOfBounds (.ldBVx x) (some (outOfBoundsAddr s.i.toNat)) s := by
  simp only [exec, execLdBVx, storeAtI_outside (vs := bcdDigits (s.reg x)) rfl h]

/-- A number no greater than a byte is kept as it is in a byte. -/
theorem ofNat_toNat_of_le_byte {d : Nat} {v : Byte} (h : d ≤ v.toNat) : (BitVec.ofNat 8 d).toNat = d :=
  (BitVec.toNat_ofNat ..).trans (Nat.mod_eq_of_lt (h.trans_lt v.isLt))

/-- Settles O47: `Fx33` is one write of the three digits, and each digit is no greater than `Vx`. -/
theorem bcdStoresThreeDigits : Obligations.BcdStoresThreeDigits := by
  refine fun s x => ⟨rfl, fun hin hwf => ?_, fun hout =>
    (exec_ldBVx_outside hout).trans (raise_memoryOutOfBounds_familyF (b := 0x33#8) rfl s)⟩
  have hstored (k : Nat) (hk : k < 3) :
      ((s.writeBytes s.i.toNat (bcdDigits (s.reg x))).readByte (s.i.toNat + k)).toNat =
        (bcdDigits (s.reg x))[k].toNat :=
    congrArg _ (readByte_writeBytes_inside s s.i.toNat k (bcdDigits (s.reg x)) hwf (Nat.succ_le_succ hin) hk)
  refine ⟨_, exec_ldBVx_inside hin, rfl, (hstored 0 (by decide)).trans ?_, (hstored 1 (by decide)).trans ?_,
    (hstored 2 (by decide)).trans ?_, fun a ha => readByte_writeBytes_outside s s.i.toNat a _ ha⟩
  · exact ofNat_toNat_of_le_byte (Nat.div_le_self ..)
  · exact ofNat_toNat_of_le_byte ((Nat.mod_le ..).trans (Nat.div_le_self ..))
  · exact ofNat_toNat_of_le_byte (Nat.mod_le ..)

/-! ## `Fx55` (R285) -/

theorem exec_ldMemVx_inside (h : s.i.toNat + x.val ≤ 0xFFF) :
    exec (.ldMemVx x) s = .next (s.writeBytes s.i.toNat (s.regsThrough x)) := by
  simp only [exec, execLdMemVx, storeAtI_inside (regsThrough_length s x) h]

theorem exec_ldMemVx_outside (h : s.i.toNat + x.val > 0xFFF) :
    exec (.ldMemVx x) s = raise .memoryOutOfBounds (.ldMemVx x) (some (outOfBoundsAddr s.i.toNat)) s := by
  simp only [exec, execLdMemVx, storeAtI_outside (regsThrough_length s x) h]

/-- Settles O48: `Fx55` is one write of the list of `V0` to `Vx`, whose entry `k` is `Vk`. -/
theorem storeRegistersAtI : Obligations.StoreRegistersAtI := by
  refine fun s x => ⟨rfl, fun hin hwf => ?_, fun hout =>
    (exec_ldMemVx_outside hout).trans (raise_memoryOutOfBounds_familyF (b := 0x55#8) rfl s)⟩
  have hlen : (s.regsThrough x).length = x.val + 1 := regsThrough_length s x
  refine ⟨_, exec_ldMemVx_inside hin, rfl, fun k hk => ?_, fun a ha => ?_⟩
  · have hkx : k.val < (s.regsThrough x).length := hlen ▸ Nat.lt_succ_of_le hk
    have hend : s.i.toNat + (s.regsThrough x).length ≤ Config.memSize := hlen ▸ Nat.succ_le_succ hin
    exact (readByte_writeBytes_inside s s.i.toNat k _ hwf hend hkx).trans (regsThrough_getElem s x k hkx)
  · exact readByte_writeBytes_outside s s.i.toNat a _ (hlen ▸ ha)

/-! ## `Fx65` (R286) -/

theorem exec_ldVxMem_inside (h : s.i.toNat + x.val ≤ 0xFFF) :
    exec (.ldVxMem x) s = .next (s.loadRegs (s.readBytes s.i.toNat (x.val + 1))) := by
  simp only [exec, execLdVxMem, bytesAtI_inside h]

theorem exec_ldVxMem_outside (h : s.i.toNat + x.val > 0xFFF) :
    exec (.ldVxMem x) s = raise .memoryOutOfBounds (.ldVxMem x) (some (outOfBoundsAddr s.i.toNat)) s := by
  simp only [exec, execLdVxMem, bytesAtI_outside h]

theorem loadRegs_readBytes_v_of_lt (a : Nat) (k : Reg) (hk : k.val < n) :
    (s.loadRegs (s.readBytes a n)).v[k] = s.readByte (a + k.val) := by
  have hlen : k.val < (s.readBytes a n).length := by rwa [readBytes_length]
  have hloaded : 0 ≤ k.val ∧ k.val < 0 + (s.readBytes a n).length := ⟨Nat.zero_le _, by rwa [Nat.zero_add]⟩
  exact ((loadRegsFrom_getElem 0 _ s.v k k.isLt).trans (dif_pos hloaded)).trans (readBytes_getElem s a n k hlen)

theorem loadRegs_readBytes_v_of_le (a : Nat) (k : Reg) (hk : n ≤ k.val) :
    (s.loadRegs (s.readBytes a n)).v[k] = s.v[k] := by
  have habove : ¬(0 ≤ k.val ∧ k.val < 0 + (s.readBytes a n).length) := by
    rw [readBytes_length]
    omega
  exact (loadRegsFrom_getElem 0 _ s.v k k.isLt).trans (dif_neg habove)

/-- Settles O49: `Fx65` is one load of the bytes read at `I`. -/
theorem loadRegistersFromI : Obligations.LoadRegistersFromI := fun s _ =>
  ⟨rfl,
    fun hin => ⟨_, exec_ldVxMem_inside hin, rfl,
      fun k hk => loadRegs_readBytes_v_of_lt s.i.toNat k (Nat.lt_succ_of_le hk),
      fun k hk => loadRegs_readBytes_v_of_le s.i.toNat k hk⟩,
    fun hout => (exec_ldVxMem_outside hout).trans (raise_memoryOutOfBounds_familyF (b := 0x65#8) rfl s)⟩

end Sys2Proof.Machine
end

section
/-! The display (44_display.md R320 to R329). A draw is the inversion, one after the other, of the cells that the set
bits of the sprite land on; as no two bits land on the same cell, each is inverted once and collides with what stood
there before the draw. -/

namespace Sys2Proof.Machine

variable {s : State} {x y : Reg} {n : Nibble} {cells : List (Nat × Nat)} {c p : Nat × Nat} {fb : Frame}
  {acc : Frame × Bool} {ox oy cx cy a m : Nat} {row : Byte}

/-! ## `CLS` (R321, R322) -/

/-- Settles O52: `CLS` puts the blank grid in place of the display. -/
theorem clearDisplayDarkensEveryCell : Obligations.ClearDisplayDarkensEveryCell :=
  ⟨rfl, fun _ => ⟨_, rfl, rfl, cell_blank⟩⟩

/-! ## A sprite as the list of the cells it covers (R323) -/

/-- The cells that the set bits of one sprite row land on, left to right. -/
def rowCells (ox cy : Nat) (row : Byte) : List (Nat × Nat) :=
  ((List.range 8).filter fun col => row.getLsbD (7 - col)).map fun col => ((ox + col) % 64, cy % 32)

/-- The cells that the set bits of a sprite land on, row by row from `cy` down. -/
def spriteCells (ox : Nat) : Nat → List Byte → List (Nat × Nat)
  | _, [] => []
  | cy, row :: rows => rowCells ox cy row ++ spriteCells ox (cy + 1) rows

/-- The effect of one set bit that lands on cell `c`. -/
def hitCell (acc : Frame × Bool) (c : Nat × Nat) : Frame × Bool :=
  (Frame.toggle acc.1 c.1 c.2, acc.2 || Frame.cell acc.1 c.1 c.2)

theorem hitCell_mod (acc : Frame × Bool) (cx cy : Nat) : hitCell acc (cx % 64, cy % 32) = hitCell acc (cx, cy) := by
  simp only [hitCell, cell_mod, Frame.toggle, Nat.mod_mod]

theorem drawRow_eq_foldl (ox cy : Nat) (row : Byte) (acc : Frame × Bool) :
    drawRow ox cy row acc = (rowCells ox cy row).foldl hitCell acc := by
  simp only [rowCells, List.foldl_map, List.foldl_filter, hitCell_mod]
  rfl

theorem drawRows_eq_foldl (ox cy : Nat) (rows : List Byte) (acc : Frame × Bool) :
    drawRows ox cy rows acc = (spriteCells ox cy rows).foldl hitCell acc := by
  induction rows generalizing cy acc with
  | nil => rfl
  | cons row rows ih => rw [drawRows, spriteCells, List.foldl_append, drawRow_eq_foldl, ih]

/-! ## The cells of the sprite in memory -/

theorem mem_rowCells :
    (cx, cy) ∈ rowCells ox oy row ↔
      ∃ col, col < 8 ∧ row.getLsbD (7 - col) = true ∧ (ox + col) % 64 = cx ∧ oy % 32 = cy := by
  simp only [rowCells, List.mem_map, List.mem_filter, List.mem_range, Prod.mk.injEq, and_assoc]

theorem mem_spriteCells :
    (cx, cy) ∈ spriteCells ox oy (s.readBytes a m) ↔
      ∃ row col, row < m ∧ col < 8 ∧ (s.readByte (a + row)).getLsbD (7 - col) = true ∧
        (ox + col) % 64 = cx ∧ (oy + row) % 32 = cy := by
  induction m generalizing a oy with
  | zero => simp [State.readBytes, spriteCells]
  | succ m ih =>
    rw [State.readBytes, spriteCells, List.mem_append, mem_rowCells, ih]
    simp only [exists_and_left, Nat.exists_lt_succ_left, Nat.add_zero, ← Nat.add_assoc, Nat.add_right_comm _ 1]

/-- R320, R323: the cells of the sprite at `I` are those the statements call covered. -/
theorem spriteCovers_iff :
    s.SpriteCovers ox oy m cx cy ↔ (cx, cy) ∈ spriteCells ox oy (s.readBytes s.i.toNat m) :=
  mem_spriteCells.symm

/-- `c` names its cell by the coordinates the cell has, so that distinct pairs name distinct cells (R320). -/
def OnScreen (c : Nat × Nat) : Prop := c.1 < 64 ∧ c.2 < 32

theorem onScreen_of_mem_spriteCells (h : c ∈ spriteCells ox oy (s.readBytes a m)) : OnScreen c := by
  obtain ⟨row, col, _, _, _, hx, hy⟩ := mem_spriteCells.mp h
  exact ⟨hx ▸ Nat.mod_lt _ (by decide), hy ▸ Nat.mod_lt _ (by decide)⟩

/-- The eight columns are distinct modulo 64. -/
theorem rowCells_nodup (ox cy : Nat) (row : Byte) : (rowCells ox cy row).Nodup := by
  refine (List.nodup_range.filter _).map_on fun i hi j hj h => ?_
  have hi8 : i < 8 := List.mem_range.mp (List.mem_filter.mp hi).1
  have hj8 : j < 8 := List.mem_range.mp (List.mem_filter.mp hj).1
  have hcol : (ox + i) % 64 = (ox + j) % 64 := congrArg Prod.fst h
  omega

/-- Up to 32 rows are distinct modulo 32, so no two bits of a sprite land on the same cell. -/
theorem spriteCells_nodup (hm : m ≤ 32) : (spriteCells ox oy (s.readBytes a m)).Nodup := by
  induction m generalizing a oy with
  | zero => exact List.nodup_nil
  | succ m ih =>
    refine List.Nodup.append (rowCells_nodup ..) (ih (by omega)) fun c hrow hrest => ?_
    obtain ⟨_, _, _, _, hy⟩ := mem_rowCells.mp hrow
    obtain ⟨row, _, hlt, _, _, _, hy'⟩ := mem_spriteCells.mp hrest
    omega

/-! ## Inverting a list of cells -/

theorem cell_toggle (hc : OnScreen c) (hp : OnScreen p) :
    Frame.cell (Frame.toggle fb c.1 c.2) p.1 p.2 = (Frame.cell fb p.1 p.2 ^^ decide (p = c)) := by
  by_cases h : p = c
  · simp [h, cell_toggle_same]
  · have hne : p.1 % 64 ≠ c.1 % 64 ∨ p.2 % 32 ≠ c.2 % 32 := by
      obtain ⟨hc1, hc2⟩ := hc
      obtain ⟨hp1, hp2⟩ := hp
      rw [Prod.ext_iff] at h
      omega
    simp [h, cell_toggle_other fb c.1 c.2 p.1 p.2 hne]

/-- Each listed cell is inverted once. -/
theorem cell_foldl_hitCell (hnodup : cells.Nodup) (hon : ∀ c ∈ cells, OnScreen c) (hp : OnScreen p) :
    Frame.cell (cells.foldl hitCell acc).1 p.1 p.2 = (Frame.cell acc.1 p.1 p.2 ^^ decide (p ∈ cells)) := by
  induction cells generalizing acc with
  | nil => simp
  | cons c cells ih =>
    obtain ⟨hcon, hon⟩ := List.forall_mem_cons.mp hon
    obtain ⟨hc, hnodup⟩ := List.nodup_cons.mp hnodup
    rw [List.foldl_cons, ih hnodup hon, hitCell, cell_toggle hcon hp]
    by_cases h : p = c
    · simp [h, hc]
    · simp [h]

/-- A bit collides with what its cell held before the whole list was inverted. -/
theorem collision_foldl_hitCell (hnodup : cells.Nodup) (hon : ∀ c ∈ cells, OnScreen c) :
    (cells.foldl hitCell acc).2 = true ↔ acc.2 = true ∨ ∃ c ∈ cells, Frame.cell acc.1 c.1 c.2 = true := by
  induction cells generalizing acc with
  | nil => simp
  | cons c cells ih =>
    obtain ⟨hcon, hon⟩ := List.forall_mem_cons.mp hon
    obtain ⟨hc, hnodup⟩ := List.nodup_cons.mp hnodup
    have hkept (d : Nat × Nat) (hd : d ∈ cells) :
        Frame.cell (hitCell acc c).1 d.1 d.2 = Frame.cell acc.1 d.1 d.2 := by
      have hne : d ≠ c := fun h => hc (h ▸ hd)
      rw [hitCell, cell_toggle hcon (hon d hd), decide_eq_false hne, Bool.xor_false]
    have hlater : (∃ d ∈ cells, Frame.cell (hitCell acc c).1 d.1 d.2 = true) ↔
        ∃ d ∈ cells, Frame.cell acc.1 d.1 d.2 = true :=
      exists_congr fun d => and_congr_right fun hd => by rw [hkept d hd]
    rw [List.foldl_cons, ih hnodup hon, hlater, List.exists_mem_cons_iff, ← or_assoc, hitCell, Bool.or_eq_true]

/-! ## A draw (R323, R325) -/

/-- A draw inverts the cells of the sprite and no other cell. -/
theorem cell_drawSprite (hm : m ≤ 32) (hx : cx < 64) (hy : cy < 32) :
    Frame.cell (drawSprite ox oy (s.readBytes a m) fb).1 cx cy =
      (Frame.cell fb cx cy ^^ decide ((cx, cy) ∈ spriteCells ox oy (s.readBytes a m))) := by
  rw [drawSprite, drawRows_eq_foldl]
  exact cell_foldl_hitCell (p := (cx, cy)) (spriteCells_nodup hm) (fun _ => onScreen_of_mem_spriteCells) ⟨hx, hy⟩

theorem cell_drawSprite_covered (hm : m ≤ 32) (h : s.SpriteCovers ox oy m cx cy) :
    Frame.cell (drawSprite ox oy (s.readBytes s.i.toNat m) fb).1 cx cy = !Frame.cell fb cx cy := by
  have hmem := spriteCovers_iff.mp h
  obtain ⟨hx, hy⟩ := onScreen_of_mem_spriteCells hmem
  rw [cell_drawSprite hm hx hy, decide_eq_true hmem, Bool.xor_true]

theorem cell_drawSprite_uncovered (hm : m ≤ 32) (hx : cx < 64) (hy : cy < 32) (h : ¬s.SpriteCovers ox oy m cx cy) :
    Frame.cell (drawSprite ox oy (s.readBytes s.i.toNat m) fb).1 cx cy = Frame.cell fb cx cy := by
  rw [cell_drawSprite hm hx hy, decide_eq_false (mt spriteCovers_iff.mpr h), Bool.xor_false]

/-- A draw collides when a covered cell was lit before it. -/
theorem collision_drawSprite (hm : m ≤ 32) :
    (drawSprite ox oy (s.readBytes s.i.toNat m) fb).2 = true ↔
      ∃ cx cy, s.SpriteCovers ox oy m cx cy ∧ Frame.cell fb cx cy = true := by
  rw [drawSprite, drawRows_eq_foldl,
    collision_foldl_hitCell (spriteCells_nodup hm) fun _ => onScreen_of_mem_spriteCells]
  simp only [Bool.false_eq_true, false_or, Prod.exists, spriteCovers_iff]

/-- Inverting the same cells twice restores the display. -/
theorem drawSprite_drawSprite (hm : m ≤ 32) :
    (drawSprite ox oy (s.readBytes a m) (drawSprite ox oy (s.readBytes a m) fb).1).1 = fb :=
  frame_ext fun cx cy hx hy => by
    rw [cell_drawSprite hm hx hy, cell_drawSprite hm hx hy, Bool.xor_assoc, Bool.xor_self, Bool.xor_false]

/-! ## `DRW` (R324, R326) -/

theorem exec_drw_inside (h : n.toNat = 0 ∨ s.i.toNat + n.toNat - 1 ≤ 0xFFF) :
    exec (.drw x y n) s = .next (s.draw (s.reg x).toNat (s.reg y).toNat (s.readBytes s.i.toNat n.toNat)) := by
  have hin : inBounds s.i.toNat n.toNat = true := by simpa [inBounds] using h
  simp only [exec, execDrw, State.bytesAtI, hin, if_true]

theorem exec_drw_outside (hn : 1 ≤ n.toNat) (h : s.i.toNat + n.toNat - 1 > 0xFFF) :
    exec (.drw x y n) s = raise .memoryOutOfBounds (.drw x y n) (some (outOfBoundsAddr s.i.toNat)) s := by
  have hout : ¬inBounds s.i.toNat n.toNat = true := by
    simp only [inBounds, Bool.or_eq_true, decide_eq_true_eq]
    omega
  simp only [exec, execDrw, State.bytesAtI, if_neg hout]

/-- The opcode in the record of a failed `DRW`. -/
theorem encode_drw (x y : Reg) (n : Nibble) :
    encode (.drw x y n) = BitVec.ofNat 16 (0xD000 + x.val * 256 + y.val * 16 + n.toNat) := by
  have hval : (encode (.drw x y n)).toNat = 0xD000 + x.val * 256 + y.val * 16 + n.toNat := packXY_toNat 0xD#4 n x y
  rw [← hval, BitVec.ofNat_toNat, BitVec.setWidth_eq]

theorem nibble_toNat_le (n : Nibble) : n.toNat ≤ 32 := n.isLt.le.trans (by decide)

theorem draw_v_regF (s : State) (ox oy : Nat) (sprite : List Byte) :
    (s.draw ox oy sprite).v[(15 : Reg)] = flagByte (drawSprite ox oy sprite s.fb).2 :=
  setReg_v_same s regF _

theorem draw_v_other (s : State) (ox oy : Nat) (sprite : List Byte) (z : Reg) (hz : z ≠ 15) :
    (s.draw ox oy sprite).v[z] = s.v[z] :=
  setReg_v_other s regF _ z hz

/-- `VF` after a draw tells of a covered cell that was lit before it (R325). -/
theorem draw_v_regF_eq_one_iff (hm : m ≤ 32) :
    (s.draw ox oy (s.readBytes s.i.toNat m)).v[(15 : Reg)] = 1 ↔
      ∃ cx cy, s.SpriteCovers ox oy m cx cy ∧ Frame.cell s.fb cx cy = true := by
  rw [draw_v_regF, flagByte_eq_one_iff, collision_drawSprite hm]

/-- Settles O53: inside memory `DRW` is a draw, of which the lemmas above say what it does to each cell and to `VF`;
outside it is `raise`. -/
theorem drawInvertsCoveredCells : Obligations.DrawInvertsCoveredCells := by
  refine fun s x y n => ⟨rfl, fun hin => ?_, fun hn hout => ?_⟩
  · have hm := nibble_toNat_le n
    refine ⟨_, exec_drw_inside hin, rfl, draw_v_other s _ _ _, fun cx cy hx hy => ⟨cell_drawSprite_covered hm,
      cell_drawSprite_uncovered hm hx hy⟩, (draw_v_regF_eq_one_iff hm).mpr, fun hdark => ?_⟩
    have hmiss : (drawSprite (s.reg x).toNat (s.reg y).toNat (s.readBytes s.i.toNat n.toNat) s.fb).2 = false := by
      rw [← Bool.not_eq_true, collision_drawSprite hm]
      rintro ⟨cx, cy, hcov, hlit⟩
      exact absurd hlit (by rw [hdark cx cy hcov]; decide)
    rw [draw_v_regF, hmiss]
    rfl
  · rw [← encode_drw]
    exact exec_drw_outside hn hout

/-! ## The same sprite twice (R328) -/

/-- A draw leaves the sprite in memory as it is. -/
theorem readBytes_draw (s : State) (ox oy : Nat) (sprite : List Byte) (a m : Nat) :
    (s.draw ox oy sprite).readBytes a m = s.readBytes a m := by
  induction m generalizing a with
  | zero => rfl
  | succ m ih => rw [State.readBytes, State.readBytes, ih]; rfl

/-- A second draw with the coordinates in other registers than `VF` is the same draw on the new display. -/
theorem exec_drw_draw (hx : x ≠ 15) (hy : y ≠ 15) (sprite : List Byte)
    (h : n.toNat = 0 ∨ s.i.toNat + n.toNat - 1 ≤ 0xFFF) :
    exec (.drw x y n) (s.draw ox oy sprite) = .next ((s.draw ox oy sprite).draw (s.reg x).toNat (s.reg y).toNat
      (s.readBytes s.i.toNat n.toNat)) := by
  have hregx : (s.draw ox oy sprite).reg x = s.reg x := draw_v_other s ox oy sprite x hx
  have hregy : (s.draw ox oy sprite).reg y = s.reg y := draw_v_other s ox oy sprite y hy
  rw [exec_drw_inside (s := s.draw ox oy sprite) h, hregx, hregy, readBytes_draw, draw_i]

/-- After a draw exactly those covered cells are lit that were dark before it. -/
theorem covered_lit_after_draw_iff (hm : m ≤ 32) :
    (∃ cx cy, s.SpriteCovers ox oy m cx cy ∧
        Frame.cell (drawSprite ox oy (s.readBytes s.i.toNat m) fb).1 cx cy = true) ↔
      ∃ cx cy, s.SpriteCovers ox oy m cx cy ∧ Frame.cell fb cx cy = false :=
  exists_congr fun _ => exists_congr fun _ => and_congr_right fun hcov => by
    rw [cell_drawSprite_covered hm hcov, Bool.not_eq_true']

/-- Settles O54: the two instructions are the same draw, once on the display and once on what it left. -/
theorem drawingTwiceRestoresTheDisplay : Obligations.DrawingTwiceRestoresTheDisplay := by
  intro s t u x y n hx hy hin ht hu
  have hm := nibble_toNat_le n
  obtain rfl := Host.Outcome.next.inj ((exec_drw_inside hin).symm.trans ht)
  obtain rfl := Host.Outcome.next.inj ((exec_drw_draw hx hy _ hin).symm.trans hu)
  refine ⟨drawSprite_drawSprite hm, draw_v_regF_eq_one_iff hm, ?_⟩
  rw [draw_v_regF, flagByte_eq_one_iff, draw_fb, collision_drawSprite hm]
  exact covered_lit_after_draw_iff hm

/-! ## The corner (R329) -/

theorem spriteCells_corner : spriteCells 63 31 [0xC0, 0xC0] = [(63, 31), (0, 31), (63, 0), (0, 0)] := by
  decide

/-- Settles O55: the four set bits of `C0 C0` land on the four cells around the corner. -/
theorem spriteWrapsAtTheCorner : Obligations.SpriteWrapsAtTheCorner := by
  intro s x y hin hx hy hfirst hsecond
  have hsprite : s.readBytes s.i.toNat 2 = [0xC0, 0xC0] := by simp only [State.readBytes, hfirst, hsecond]
  have hregx : (s.reg x).toNat = 63 := hx
  have hregy : (s.reg y).toNat = 31 := hy
  refine ⟨_, exec_drw_inside (n := 2) (.inr hin), fun cx cy hcx hcy => ?_⟩
  rw [← spriteCells_corner, ← hsprite, ← cell_drawSprite (by decide) hcx hcy, draw_fb, hregx, hregy]
  rfl

end Sys2Proof.Machine
end

section
/-! What sets and what clears `DrawFlag` (44_display.md R327): the instructions, the cycle, and the other host
operations. -/

namespace Sys2Proof.Machine

variable {i : Instr} {s t : State} {keys : Vector Bool 16} {rand : Byte}

/-! ## Instructions -/

theorem writeRF_drawFlag (s : State) (x : Reg) (r : Byte) (f : Bool) : (s.writeRF x r f).drawFlag = s.drawFlag := by
  rw [writeRF_frame]

/-- An instruction that does not draw writes other fields than the flag, whether it completes or fails. -/
theorem exec_keeps_drawFlag (s : State) (hcls : i ≠ .cls) (hdrw : ∀ x y n, i ≠ .drw x y n) :
    ∃ t, exec i s = .next t ∧ t.drawFlag = s.drawFlag := by
  cases i with
  | cls => contradiction
  | drw x y n => exact absurd rfl (hdrw x y n)
  | ret =>
    rcases pop_cases s with ⟨_, _, h⟩ | ⟨_, h⟩ <;> simp only [exec, execRet, h] <;> exact ⟨_, rfl, rfl⟩
  | call nnn =>
    rcases push_cases s s.pc with ⟨_, h⟩ | ⟨_, h⟩ <;> simp only [exec, execCall, h] <;> exact ⟨_, rfl, rfl⟩
  | skp x =>
    rcases keyNumber_cases s x with ⟨_, _, h⟩ | ⟨_, h⟩ <;> simp only [exec, execSkp, h] <;> exact ⟨_, rfl, rfl⟩
  | sknp x =>
    rcases keyNumber_cases s x with ⟨_, _, h⟩ | ⟨_, h⟩ <;> simp only [exec, execSknp, h] <;> exact ⟨_, rfl, rfl⟩
  | ldBVx x =>
    rcases storeAtI_cases s (bcdDigits (s.reg x)) with ⟨_, h⟩ | ⟨_, h⟩ <;> simp only [exec, execLdBVx, h] <;>
      exact ⟨_, rfl, rfl⟩
  | ldMemVx x =>
    rcases storeAtI_cases s (s.regsThrough x) with ⟨_, h⟩ | ⟨_, h⟩ <;> simp only [exec, execLdMemVx, h] <;>
      exact ⟨_, rfl, rfl⟩
  | ldVxMem x =>
    rcases bytesAtI_cases s (x.val + 1) with ⟨_, h⟩ | ⟨_, h⟩ <;> simp only [exec, execLdVxMem, h] <;>
      exact ⟨_, rfl, rfl⟩
  | addReg | sub | shr | subn | shl => exact ⟨_, rfl, writeRF_drawFlag ..⟩
  | jp | seImm | sneImm | seReg | ldImm | addImm | ldReg | orReg | andReg | xorReg | sneReg | ldI | jpV0 | rnd
  | ldVxDt | ldVxK | ldDtVx | ldStVx | addIVx | ldFVx => exact ⟨_, rfl, rfl⟩

theorem exec_drawFlag_of_not_drawing (h : exec i s = .next t) (hi : i ≠ .cls ∧ ∀ x y n, i ≠ .drw x y n) :
    t.drawFlag = s.drawFlag := by
  obtain ⟨hcls, hdrw⟩ := hi
  obtain ⟨t', ht', hflag⟩ := exec_keeps_drawFlag s hcls hdrw
  obtain rfl := Host.Outcome.next.inj (h.symm.trans ht')
  exact hflag

/-- A drawing instruction that does not fail sets the flag. -/
theorem exec_drawFlag_of_drawing (h : exec i s = .next t) (hi : i = .cls ∨ ∃ x y n, i = .drw x y n)
    (hlive : t.exec ≠ .faulted) : t.drawFlag = true := by
  rcases hi with rfl | ⟨x, y, n, rfl⟩
  · cases h
    rfl
  · rcases bytesAtI_cases s n.toNat with ⟨_, hb⟩ | ⟨_, hb⟩ <;> simp only [exec, execDrw, hb] at h <;> cases h
    · rfl
    · contradiction

/-- An instruction that fails only enters the fault. -/
theorem exec_drawFlag_of_faulted (h : exec i s = .next t) (hrun : s.exec = .running) (hfault : t.exec = .faulted) :
    t.drawFlag = s.drawFlag := by
  rcases exec_shape i s with ⟨r, hr, _⟩ | ⟨t', ht', _, _, hexec⟩
  · cases h.symm.trans hr
    rfl
  · cases h.symm.trans ht'
    simp [hrun, hfault] at hexec

/-- An instruction never clears the flag. -/
theorem exec_drawFlag_stays (h : exec i s = .next t) (hrun : s.exec = .running) (hset : s.drawFlag = true) :
    t.drawFlag = true := by
  by_cases hfault : t.exec = .faulted
  · exact (exec_drawFlag_of_faulted h hrun hfault).trans hset
  · by_cases hi : i = .cls ∨ ∃ x y n, i = .drw x y n
    · exact exec_drawFlag_of_drawing h hi hfault
    · have hnot : i ≠ .cls ∧ ∀ x y n, i ≠ .drw x y n := by simpa using hi
      exact (exec_drawFlag_of_not_drawing h hnot).trans hset

/-! ## The cycle -/

theorem endCycle_drawFlag (s : State) (status : Status) : (s.endCycle status).drawFlag = s.drawFlag := by
  rw [endCycle_frame]

theorem afterExec_drawFlag (s : State) : s.afterExec.drawFlag = s.drawFlag := by
  by_cases h : s.exec = .faulted
  · rw [afterExec_faulted s h, abortCycle_drawFlag]
  · rw [afterExec_live s h, endCycle_drawFlag]

theorem waitCycle_drawFlag (s : State) (keys : Vector Bool 16) : (s.waitCycle keys).drawFlag = s.drawFlag := by
  unfold State.waitCycle
  dsimp only
  split <;> rfl

theorem dispatchWord_drawFlag_stays {op : Word} (h : s.dispatchWord op = .next t) (hrun : s.exec = .running)
    (hset : s.drawFlag = true) : t.drawFlag = true := by
  rcases dispatchWord_cases s op with ⟨i, u, _, hu, hd⟩ | ⟨_, _, _, hd⟩ | ⟨_, _, _, hd⟩ <;> cases h.symm.trans hd
  · exact (afterExec_drawFlag u).trans (exec_drawFlag_stays hu hrun hset)
  · exact hset
  · exact (endCycle_drawFlag ..).trans hset

theorem cycle_drawFlag_stays (h : s.cycle keys rand = .next t) (hset : s.drawFlag = true) : t.drawFlag = true := by
  cases hexec : s.exec with
  | running =>
    rw [cycle_running hexec] at h
    rcases runCycle_cases s keys rand with ⟨_, hr⟩ | ⟨_, hr⟩
    · cases h.symm.trans hr
      exact hset
    · exact dispatchWord_drawFlag_stays (hr.symm.trans h) hexec hset
  | waitingForKey =>
    cases h.symm.trans (cycle_waiting hexec keys rand)
    exact (waitCycle_drawFlag s keys).trans hset
  | faulted =>
    cases h.symm.trans (cycle_faulted hexec keys rand)
    exact hset

/-! ## The other host operations -/

theorem loadProgram_drawFlag (s : State) (rom : List Byte) : (s.loadProgram rom).drawFlag = s.drawFlag := by
  by_cases hfault : s.exec = .faulted
  · rw [loadProgram_faulted s hfault, abortCycle_drawFlag]
  · rcases Nat.lt_or_ge Config.maxRomBytes rom.length with hlen | hlen
    · rw [loadProgram_tooLarge s hfault hlen, abortCycle_drawFlag, enterFault_drawFlag]
    · rw [loadProgram_fits s hfault hlen, writeBytes_drawFlag]

theorem timerTick_drawFlag (h : s.timerTick = .next t) : t.drawFlag = s.drawFlag := by
  cases hcoupling : s.params.timerCoupling with
  | coupled => cases h.symm.trans (timerTick_coupled hcoupling)
  | decoupled =>
    by_cases hfault : s.exec = .faulted
    · cases h.symm.trans (timerTick_faulted hcoupling hfault)
      rfl
    · cases h.symm.trans (timerTick_live hcoupling hfault)
      rfl

/-- The only host operation that clears the flag is `ack_draw`; reset sets it (R47). -/
theorem runHostOp_drawFlag_stays {op : HostOp} (h : s.runHostOp op = .next t) (hset : s.drawFlag = true)
    (hop : op ≠ .ackDraw) : t.drawFlag = true := by
  cases op with
  | reset =>
    cases h
    rfl
  | loadProgram rom =>
    cases h
    exact (loadProgram_drawFlag s rom).trans hset
  | cycle keys rand => exact cycle_drawFlag_stays h hset
  | timerTick => exact (timerTick_drawFlag h).trans hset
  | ackDraw => contradiction
  | view =>
    cases h
    exact hset

/-- Settles O30: the three rules for an instruction, and no host operation but `ack_draw` clears the flag. -/
theorem drawFlagSetByDrawingOnly : Obligations.DrawFlagSetByDrawingOnly := by
  refine ⟨fun i s t h hrun => ⟨exec_drawFlag_of_drawing h, exec_drawFlag_of_not_drawing h,
    exec_drawFlag_of_faulted h hrun⟩, fun s t h hset => ?_⟩
  rcases step_cases s with ⟨op, ops, hops, hstep⟩ | ⟨_, hstep⟩
  · by_cases hop : op = .ackDraw
    · exact .inr ⟨ops, hop ▸ hops⟩
    · exact .inl (runHostOp_drawFlag_stays (hstep.symm.trans h) hset hop)
  · exact .inl (cycle_drawFlag_stays (hstep.symm.trans h) hset)

end Sys2Proof.Machine
end

section
/-! The key skips (45_keypad.md R361, R363, R364): the key that `Vx` names, the skip on its bit of the sample, and the
record of a number above `0xF`. -/

namespace Sys2Proof.Machine

variable {s : State} {x : Reg}

/-! ## The key operand (R361, R363) -/

theorem keyNumber_eq_some {k : Key} (h : s.v[x].toNat = k.val) : s.keyNumber x = some k := by
  obtain ⟨j, hj, hkey⟩ | ⟨hout, _⟩ := keyNumber_cases s x
  · obtain rfl : j = k := Fin.ext (hj.symm.trans h)
    exact hkey
  · exact absurd (h ▸ k.isLt) (Nat.not_lt.mpr hout)

theorem keyNumber_eq_none (h : s.v[x].toNat > 15) : s.keyNumber x = none := by
  obtain ⟨j, hj, _⟩ | ⟨_, hkey⟩ := keyNumber_cases s x
  · exact absurd (hj ▸ j.isLt) (Nat.not_lt.mpr h)
  · exact hkey

/-! ## A key that exists -/

/-- A skip on the negated test takes the other branch. -/
theorem skipIf_not (s : State) (c : Bool) : s.skipIf (!c) = { s with pc := if c then s.pc else s.pc + 2 } := by
  cases c <;> rfl

theorem exec_skp_key {k : Key} (h : s.v[x].toNat = k.val) : exec (.skp x) s = .next (s.skipIf s.keyCur[k]) := by
  simp only [exec, execSkp, keyNumber_eq_some h, State.isDown]

theorem exec_sknp_key {k : Key} (h : s.v[x].toNat = k.val) : exec (.sknp x) s = .next (s.skipIf (!s.keyCur[k])) := by
  simp only [exec, execSknp, keyNumber_eq_some h, State.isDown]

/-! ## A number above `0xF` -/

theorem exec_skp_noKey (h : s.v[x].toNat > 15) : exec (.skp x) s = raise .keyOutOfRange (.skp x) none s := by
  simp only [exec, execSkp, keyNumber_eq_none h]

theorem exec_sknp_noKey (h : s.v[x].toNat > 15) : exec (.sknp x) s = raise .keyOutOfRange (.sknp x) none s := by
  simp only [exec, execSknp, keyNumber_eq_none h]

/-- The word of format X in numbers: the fixed digits plus the register digit (30_encoding.md R111). -/
theorem packXB_eq_ofNat (t : Nibble) (x : Reg) (b : Byte) :
    packXB t x b = BitVec.ofNat 16 (t.toNat * 4096 + b.toNat + x.val * 256) := by
  rw [Nat.add_right_comm, ← packXB_toNat, BitVec.ofNat_toNat, BitVec.setWidth_eq]

theorem encode_skp (x : Reg) : encode (.skp x) = BitVec.ofNat 16 (0xE09E + x.val * 256) :=
  packXB_eq_ofNat 0xE#4 x 0x9E#8

theorem encode_sknp (x : Reg) : encode (.sknp x) = BitVec.ofNat 16 (0xE0A1 + x.val * 256) :=
  packXB_eq_ofNat 0xE#4 x 0xA1#8

/-- The record of a key number out of range: the opcode, the fetch address and no memory address (60_exceptions.md R427,
R429). -/
theorem raise_keyOutOfRange {i : Instr} {op : Word} (hi : encode i = op) (s : State) :
    raise .keyOutOfRange i none s = .next { s with
      exec := .faulted,
      fault := some { kind := .keyOutOfRange, opcode := some op, pc := s.pc - 2, addr := none } } :=
  hi ▸ rfl

/-- Settles O56: a key number names one key, on whose bit the two skip in opposite ways; any other number is `raise`. -/
theorem keySkipsTestTheSample : Obligations.KeySkipsTestTheSample := fun s x =>
  ⟨rfl, rfl,
    fun k hk => ⟨exec_skp_key hk, (exec_sknp_key hk).trans (congrArg _ (skipIf_not s s.keyCur[k]))⟩,
    fun hout => ⟨(exec_skp_noKey hout).trans (raise_keyOutOfRange (encode_skp x) s),
      (exec_sknp_noKey hout).trans (raise_keyOutOfRange (encode_sknp x) s)⟩⟩

end Sys2Proof.Machine
end

section
/-! The timer tick as a whole (46_timers.md R390): the two countdowns and the event in numbers, and the frame. -/

namespace Sys2Proof.Machine

/-- A tick writes the two timers and the events, and nothing else (R390). -/
theorem tick_frame (s : State) :
    s.tick = { s with dt := s.tick.dt, st := s.tick.st, events := s.tick.events } :=
  rfl

/-- Settles O15: each timer is a countdown, the event is that of `ST` at 1, and the frame is the tick's own. -/
theorem tickCountsBothTimersDown : Obligations.TickCountsBothTimersDown := fun s =>
  ⟨countDown_toNat s.dt, countDown_toNat s.st, tick_events_toNat s, tick_frame s⟩

end Sys2Proof.Machine
end

section
/-! The cycles of 60_exceptions.md: the two policies for an unknown opcode (R421, R431), and the one shape of every state
that a failing cycle leaves (R425). -/

namespace Sys2Proof.Machine

variable {s s0 t : State} {keys : Vector Bool 16} {rand : Byte} {op : Word} {i : Instr}

/-! ## An unknown opcode (R421, R431) -/

theorem runCycle_of_fetchOK (h : fetchOK s.pc = true) :
    s.runCycle keys rand = (s.beginCycle keys rand).dispatchWord (s.fetchWord s.pc) := by
  rcases runCycle_cases s keys rand with ⟨hbad, _⟩ | ⟨_, hrun⟩
  · exact absurd (h.symm.trans hbad) (by decide)
  · exact hrun

/-- A cycle at a fetchable address dispatches the word there, in the sampled state (40_cycle.md R155). -/
theorem step_fetched (h : s.TakesCycle keys rand s0) (hrun : s.exec = .running) (hok : fetchOK s.pc = true) :
    step s = (s0.beginCycle keys rand).dispatchWord (s.fetchWord s.pc) := by
  rw [step_running h hrun]
  obtain ⟨_, ops, n, rfl⟩ := step_of_takesCycle h
  exact runCycle_of_fetchOK hok

/-- Settles O10: the fetched word is unknown, so the cycle fails under `Strict`, and under `Lenient` it is the end of a
cycle right after the advance, with the tick that the coupling asks for. -/
theorem unknownOpcodeFollowsPolicy : Obligations.UnknownOpcodeFollowsPolicy := by
  intro s s0 keys rand op r htakes hrun hok hop hunknown hr
  subst hop hr
  have hstep := step_fetched htakes hrun hok
  obtain ⟨_, ops, n, rfl⟩ := step_of_takesCycle htakes
  have hwarn (hlenient : s.params.unknownOpcode = .lenient) := hstep.trans (dispatchWord_lenient hunknown hlenient)
  exact ⟨fun hstrict => hstep.trans (dispatchWord_strict hunknown hstrict),
    fun hlenient hdecoupled => (hwarn hlenient).trans (congrArg _ (endCycle_decoupled _ _ hdecoupled)),
    fun hlenient hcoupled => ⟨_, (hwarn hlenient).trans (congrArg _ (endCycle_coupled _ _ hcoupled)), rfl,
      countDown_toNat s.dt, countDown_toNat s.st, tick_events_toNat _⟩⟩

/-! ## A cycle that fails (R425) -/

theorem endCycle_exec (s : State) (status : Status) : (s.endCycle status).exec = s.exec := by
  rw [endCycle_frame]

theorem afterExec_exec (s : State) : s.afterExec.exec = s.exec := by
  by_cases h : s.exec = .faulted
  · rw [afterExec_faulted s h, abortCycle_exec]
  · rw [afterExec_live s h, endCycle_exec]

/-- A running core that an instruction leaves in `Faulted` has entered the fault and done nothing else (R425, R426). -/
theorem exec_eq_enterFault (h : exec i s = .next t) (hrun : s.exec = .running) (hfault : t.exec = .faulted) :
    ∃ r, t = s.enterFault r := by
  rcases exec_shape i s with ⟨r, hraise, _⟩ | ⟨t', ht', _, _, hexec⟩
  · cases h.symm.trans hraise
    exact ⟨r, rfl⟩
  · cases h.symm.trans ht'
    simp [hrun, hfault] at hexec

/-- A dispatch that fails has advanced `PC` and entered the fault, whether the instruction or the decoder raised it. -/
theorem dispatchWord_eq_abort (h : s.dispatchWord op = .next t) (hrun : s.exec = .running)
    (hfault : t.exec = .faulted) : ∃ r, t = (s.advance.enterFault r).abortCycle := by
  rcases dispatchWord_cases s op with ⟨i, u, _, hexec, hd⟩ | ⟨_, _, _, hd⟩ | ⟨_, _, _, hd⟩ <;> cases h.symm.trans hd
  · rw [afterExec_exec] at hfault
    obtain ⟨r, rfl⟩ := exec_eq_enterFault hexec hrun hfault
    exact ⟨r, afterExec_faulted _ rfl⟩
  · exact ⟨_, rfl⟩
  · rw [endCycle_exec] at hfault
    exact absurd (hrun.symm.trans hfault) (by decide)

/-- A `Running` cycle that fails has sampled, advanced `PC` when the fetch succeeded, and entered the fault. -/
theorem runCycle_eq_abort (h : s.runCycle keys rand = .next t) (hrun : s.exec = .running)
    (hfault : t.exec = .faulted) : ∃ r, t = State.abortCycle (State.enterFault
      { s.beginCycle keys rand with pc := if fetchOK s.pc then s.pc + 2 else s.pc } r) := by
  rcases runCycle_cases s keys rand with ⟨hbad, hr⟩ | ⟨hok, hr⟩
  · cases h.symm.trans hr
    exact ⟨_, by rw [hbad]; rfl⟩
  · obtain ⟨r, rfl⟩ := dispatchWord_eq_abort (hr.symm.trans h) hrun hfault
    exact ⟨r, by rw [hok]; rfl⟩

/-- Settles O11: the shape of a cycle that fails, read back at the state before it. -/
theorem failedCycleCommitsNothing : Obligations.FailedCycleCommitsNothing := by
  intro s s0 t keys rand htakes hrun hstep hfault
  rw [← htakes.pc_eq, ← htakes.keyCur_eq]
  obtain ⟨r, rfl⟩ :=
    runCycle_eq_abort ((step_running htakes hrun).symm.trans hstep) (htakes.exec_eq.trans hrun) hfault
  exact ⟨rfl, rfl⟩

end Sys2Proof.Machine
end

section
/-! What an instruction can do, said once (40_cycle.md R158; 60_exceptions.md R420): the reasons for which it fails, with
the kind and the address of the record, and what it can write when it completes. The rules on who writes what and on who
fails follow by cases. -/

namespace Sys2Proof.Machine

variable {i : Instr} {s t : State} {x : Reg} {n : Nat} {kind : ErrorKind} {addr : Option Nat}

/-! ## Failing -/

/-- `Raises s i kind addr`: run in `s`, instruction `i` raises an error of this kind with this address. -/
inductive Raises (s : State) : Instr → ErrorKind → Option Nat → Prop
  | ret (h : s.sp.val = 0) : Raises s .ret .stackUnderflow none
  | call (nnn : Addr12) (h : s.sp.val = 16) : Raises s (.call nnn) .stackOverflow none
  | access (i : Instr) (n : Nat) (hn : accessSize i = some n) (hpos : 1 ≤ n) (hout : s.i.toNat + n - 1 > 0xFFF) :
      Raises s i .memoryOutOfBounds (some (outOfBoundsAddr s.i.toNat))
  | skp (x : Reg) (h : s.v[x].toNat > 15) : Raises s (.skp x) .keyOutOfRange none
  | sknp (x : Reg) (h : s.v[x].toNat > 15) : Raises s (.sknp x) .keyOutOfRange none

/-- An instruction whose access at `I` leaves memory raises `MemoryOutOfBounds` (20_memory.md R83, R88). -/
theorem exec_access_outside (hn : accessSize i = some n) (hpos : 1 ≤ n) (hout : s.i.toNat + n - 1 > 0xFFF) :
    exec i s = raise .memoryOutOfBounds i (some (outOfBoundsAddr s.i.toNat)) s := by
  cases i with
  | drw x y m =>
    cases hn
    exact exec_drw_outside hpos hout
  | ldBVx x =>
    cases hn
    exact exec_ldBVx_outside hout
  | ldMemVx x =>
    cases hn
    exact exec_ldMemVx_outside hout
  | ldVxMem x =>
    cases hn
    exact exec_ldVxMem_outside hout
  | _ => cases hn

/-- The reasons of `Raises` are enough to fail. -/
theorem Raises.exec_eq (h : Raises s i kind addr) : exec i s = raise kind i addr s := by
  cases h with
  | ret h => exact exec_ret_empty h
  | call nnn h => exact exec_call_full nnn h
  | access i n hn hpos hout => exact exec_access_outside hn hpos hout
  | skp x h => exact exec_skp_noKey h
  | sknp x h => exact exec_sknp_noKey h

/-! ## Completing -/

/-- The instructions documented to set `VF`, and those that name it as their ordinary destination (10_state.md R33). -/
def MayWriteVF : Instr → Prop
  | .addReg _ _ | .sub _ _ | .shr _ _ | .subn _ _ | .shl _ _ | .drw _ _ _ => True
  | .ldImm x _ | .addImm x _ | .rnd x _ | .ldReg x _ | .orReg x _ | .andReg x _ | .xorReg x _ | .ldVxDt x
  | .ldVxMem x => x = 15
  | _ => False

/-- `Completes s i t`: what instruction `i` can have written when it completes in `s` and leaves `t`. The instructions
that only load registers are one family (`regs`), those that only move `PC` another (`moves`). -/
inductive Completes (s : State) : Instr → State → Prop
  | cls : Completes s .cls s.clearDisplay
  | ret (j : Fin 16) (h : s.sp.val = j.val + 1) :
      Completes s .ret { s with sp := ⟨j.val, by omega⟩, pc := s.stack[j] }
  | call (nnn : Addr12) (j : Fin 16) (h : s.sp.val = j.val) :
      Completes s (.call nnn)
        { s with pc := zextAddr nnn, sp := ⟨j.val + 1, by omega⟩, stack := s.stack.set j.val s.pc }
  | moves (i : Instr) (w : Word) (h : w = s.pc ∨ w = s.pc + 2 ∨ w.toNat ≤ 0x10FE) : Completes s i { s with pc := w }
  | regs (i : Instr) (v : Vector Byte 16) (n : Nat) (h : MayWriteVF i ∨ v[(15 : Reg)] = s.v[(15 : Reg)]) :
      Completes s i { s with v := v, draws := n }
  | drw (x y : Reg) (n : Nibble) (ox oy : Nat) (sprite : List Byte) : Completes s (.drw x y n) (s.draw ox oy sprite)
  | ldI (nnn : Addr12) : Completes s (.ldI nnn) (s.setI (zextAddr nnn))
  | addIVx (x : Reg) (w : Word) : Completes s (.addIVx x) (s.setI w)
  | ldFVx (x : Reg) (w : Word) : Completes s (.ldFVx x) (s.setI w)
  | ldBVx (x : Reg) (vs : List Byte) (h : s.i.toNat + vs.length ≤ Config.memSize) :
      Completes s (.ldBVx x) (s.writeBytes s.i.toNat vs)
  | ldMemVx (x : Reg) (vs : List Byte) (h : s.i.toNat + vs.length ≤ Config.memSize) :
      Completes s (.ldMemVx x) (s.writeBytes s.i.toNat vs)
  | ldVxK (x : Reg) : Completes s (.ldVxK x) { s with waitReg := x, exec := .waitingForKey }
  | ldDtVx (x : Reg) (b : Byte) : Completes s (.ldDtVx x) { s with dt := b }
  | ldStVx (x : Reg) (b : Byte) (es : List AudioEvent) : Completes s (.ldStVx x) { s with st := b, events := es }

theorem Completes.setReg {b : Byte} (h : x = 15 → MayWriteVF i) : Completes s i (s.setReg x b) :=
  .regs i _ _ <| (eq_or_ne x 15).imp h fun hx => setReg_v_other s x b 15 hx.symm

theorem Completes.writeRF {r : Byte} {f : Bool} (h : MayWriteVF i) : Completes s i (s.writeRF x r f) := by
  rw [writeRF_frame]
  exact .regs i _ _ (.inl h)

theorem Completes.skipIf (i : Instr) (c : Bool) : Completes s i (s.skipIf c) := by
  cases c
  · exact .moves i s.pc (.inl rfl)
  · exact .moves i (s.pc + 2) (.inr (.inl rfl))

/-- The target of `JP nnn` (R191). -/
theorem zextAddr_toNat_le (nnn : Addr12) : (zextAddr nnn).toNat ≤ 0x10FE := by
  rw [zextAddr_toNat]
  omega

/-- The largest target of `JP V0, nnn` (10_state.md R37, R197). -/
theorem zextByte_add_zextAddr_le (b : Byte) (nnn : Addr12) : (zextByte b + zextAddr nnn).toNat ≤ 0x10FE :=
  (zextByte_add_zextAddr_toNat b nnn).trans_le (byte_add_addr_le b nnn)

/-- An access at `I` is inside memory, or it has at least one byte and leaves memory (R83). -/
theorem access_cases (a n : Nat) : (n = 0 ∨ a + n - 1 ≤ 0xFFF) ∨ (1 ≤ n ∧ a + n - 1 > 0xFFF) := by
  omega

/-- Every instruction completes as `Completes` says, or raises an error for one of the reasons of `Raises`. -/
theorem exec_cases (i : Instr) (s : State) :
    (∃ t, exec i s = .next t ∧ Completes s i t) ∨ ∃ kind addr, Raises s i kind addr := by
  cases i with
  | cls => exact .inl ⟨_, rfl, .cls⟩
  | ret =>
    rcases pop_cases s with ⟨j, hj, _⟩ | ⟨hempty, _⟩
    · exact .inl ⟨_, exec_ret_at hj, .ret j hj⟩
    · exact .inr ⟨_, _, .ret hempty⟩
  | call nnn =>
    rcases push_cases s s.pc with ⟨hlt, _⟩ | ⟨hfull, _⟩
    · exact .inl ⟨_, exec_call_at (j := ⟨s.sp.val, hlt⟩) nnn rfl, .call nnn ⟨s.sp.val, hlt⟩ rfl⟩
    · exact .inr ⟨_, _, .call nnn hfull⟩
  | jp nnn => exact .inl ⟨_, rfl, .moves _ _ (.inr (.inr (zextAddr_toNat_le nnn)))⟩
  | jpV0 nnn => exact .inl ⟨_, rfl, .moves _ _ (.inr (.inr (zextByte_add_zextAddr_le ..)))⟩
  | seImm | sneImm | seReg | sneReg => exact .inl ⟨_, rfl, .skipIf ..⟩
  | skp x =>
    rcases keyNumber_cases s x with ⟨k, hk, _⟩ | ⟨hout, _⟩
    · exact .inl ⟨_, exec_skp_key hk, .skipIf ..⟩
    · exact .inr ⟨_, _, .skp x hout⟩
  | sknp x =>
    rcases keyNumber_cases s x with ⟨k, hk, _⟩ | ⟨hout, _⟩
    · exact .inl ⟨_, exec_sknp_key hk, .skipIf ..⟩
    · exact .inr ⟨_, _, .sknp x hout⟩
  | ldImm | addImm | ldReg | orReg | andReg | xorReg | rnd | ldVxDt => exact .inl ⟨_, rfl, .setReg id⟩
  | addReg | sub | shr | subn | shl => exact .inl ⟨_, rfl, .writeRF trivial⟩
  | ldI nnn => exact .inl ⟨_, rfl, .ldI nnn⟩
  | addIVx x => exact .inl ⟨_, rfl, .addIVx x _⟩
  | ldFVx x => exact .inl ⟨_, rfl, .ldFVx x _⟩
  | ldVxK x => exact .inl ⟨_, rfl, .ldVxK x⟩
  | ldDtVx x => exact .inl ⟨_, rfl, .ldDtVx x _⟩
  | ldStVx x => exact .inl ⟨_, rfl, .ldStVx x _ _⟩
  | drw x y n =>
    rcases access_cases s.i.toNat n.toNat with hin | ⟨hpos, hout⟩
    · exact .inl ⟨_, exec_drw_inside hin, .drw ..⟩
    · exact .inr ⟨_, _, .access _ _ rfl hpos hout⟩
  | ldBVx x =>
    rcases Nat.lt_or_ge 0xFFF (s.i.toNat + 2) with hout | hin
    · exact .inr ⟨_, _, .access _ _ rfl (Nat.le_add_left ..) hout⟩
    · exact .inl ⟨_, exec_ldBVx_inside hin, .ldBVx _ _ (Nat.succ_le_succ hin)⟩
  | ldMemVx x =>
    rcases Nat.lt_or_ge 0xFFF (s.i.toNat + x.val) with hout | hin
    · exact .inr ⟨_, _, .access _ _ rfl (Nat.le_add_left ..) hout⟩
    · exact .inl ⟨_, exec_ldMemVx_inside hin, .ldMemVx _ _ (by rw [regsThrough_length]; exact Nat.succ_le_succ hin)⟩
  | ldVxMem x =>
    rcases Nat.lt_or_ge 0xFFF (s.i.toNat + x.val) with hout | hin
    · exact .inr ⟨_, _, .access _ _ rfl (Nat.le_add_left ..) hout⟩
    · exact .inl ⟨_, exec_ldVxMem_inside hin, .regs _ _ _ <| (eq_or_ne x 15).imp id fun hx =>
        loadRegs_readBytes_v_of_le _ 15 (Nat.lt_of_le_of_ne (Nat.le_of_lt_succ x.isLt) (Fin.val_ne_of_ne hx))⟩

/-- What an instruction answers: it completes, or it enters the fault with its own opcode and fetch address. -/
theorem exec_next_cases (h : exec i s = .next t) :
    Completes s i t ∨ ∃ kind addr, Raises s i kind addr ∧
      t = s.enterFault { kind := kind, opcode := some (encode i), pc := s.fetchAddr, addr := addr } := by
  rcases exec_cases i s with ⟨u, hu, hc⟩ | ⟨kind, addr, hr⟩
  · cases h.symm.trans hu
    exact .inl hc
  · cases h.symm.trans hr.exec_eq
    exact .inr ⟨kind, addr, hr, rfl⟩

/-- An instruction that completes keeps `Exec` unless it starts a key wait. -/
theorem Completes.exec_eq (h : Completes s i t) : t.exec = s.exec ∨ (t.exec = .waitingForKey ∧ i = .ldVxK t.waitReg) := by
  cases h
  case ldVxK x => exact .inr ⟨rfl, rfl⟩
  all_goals exact .inl rfl

/-- Settles O31: a store is `Fx33` or `Fx55`; any other instruction leaves the cells and the font as they are. -/
theorem memoryWrittenByStoresOnly : Obligations.MemoryWrittenByStoresOnly := by
  intro i s t h hbcd hstore a
  rcases exec_next_cases h with hc | ⟨_, _, _, rfl⟩
  · cases hc
    case ldBVx x _ _ => exact absurd rfl (hbcd x)
    case ldMemVx x _ _ => exact absurd rfl (hstore x)
    all_goals rfl
  · rfl

theorem Completes.stack_eq (h : Completes s i t) (hret : i ≠ .ret) (hcall : ∀ nnn, i ≠ .call nnn) :
    t.sp = s.sp ∧ t.stack = s.stack := by
  cases h
  case ret => contradiction
  case call nnn _ _ => exact absurd rfl (hcall nnn)
  all_goals exact ⟨rfl, rfl⟩

theorem Completes.i_eq (h : Completes s i t) (hld : ∀ nnn, i ≠ .ldI nnn) (hadd : ∀ x, i ≠ .addIVx x)
    (hfont : ∀ x, i ≠ .ldFVx x) : t.i = s.i := by
  cases h
  case ldI nnn => exact absurd rfl (hld nnn)
  case addIVx x _ => exact absurd rfl (hadd x)
  case ldFVx x _ => exact absurd rfl (hfont x)
  all_goals rfl

theorem Completes.dt_eq (h : Completes s i t) (hi : ∀ x, i ≠ .ldDtVx x) : t.dt = s.dt := by
  cases h
  case ldDtVx x _ => exact absurd rfl (hi x)
  all_goals rfl

theorem Completes.st_eq (h : Completes s i t) (hi : ∀ x, i ≠ .ldStVx x) : t.st = s.st ∧ t.events = s.events := by
  cases h
  case ldStVx x _ _ => exact absurd rfl (hi x)
  all_goals exact ⟨rfl, rfl⟩

theorem Completes.fb_eq (h : Completes s i t) (hcls : i ≠ .cls) (hdrw : ∀ x y n, i ≠ .drw x y n) : t.fb = s.fb := by
  cases h
  case cls => contradiction
  case drw x y n _ _ _ => exact absurd rfl (hdrw x y n)
  all_goals rfl

/-- Settles O32: one frame for each element when the instruction completes; a failing one writes none of them. -/
theorem writersOfSpecialState : Obligations.WritersOfSpecialState := by
  intro i s t h
  rcases exec_next_cases h with hc | ⟨_, _, _, rfl⟩
  · exact ⟨hc.stack_eq, hc.i_eq, hc.dt_eq, hc.st_eq, hc.fb_eq⟩
  · exact ⟨fun _ _ => ⟨rfl, rfl⟩, fun _ _ _ => rfl, fun _ => rfl, fun _ => ⟨rfl, rfl⟩, fun _ _ => rfl⟩

theorem Completes.vF_eq (h : Completes s i t) (hi : ¬MayWriteVF i) : t.v[(15 : Reg)] = s.v[(15 : Reg)] := by
  cases h
  case regs _ _ h => exact h.resolve_left hi
  case drw => exact absurd trivial hi
  all_goals rfl

/-- Settles O33: what the statement excludes is exactly `MayWriteVF`. -/
theorem vFChangedOnlyWhereDocumented : Obligations.VFChangedOnlyWhereDocumented := by
  intro i s t h hflag himm hreg hdt hmem
  have hi : ¬MayWriteVF i := by
    cases i <;> simp_all [MayWriteVF]
  rcases exec_next_cases h with hc | ⟨_, _, _, rfl⟩
  · exact hc.vF_eq hi
  · rfl

/-! ## Who fails, and how (60_exceptions.md section 1) -/

theorem Completes.exec_ne_faulted (h : Completes s i t) (hlive : s.exec ≠ .faulted) : t.exec ≠ .faulted := by
  rcases h.exec_eq with he | ⟨he, _⟩ <;> rw [he]
  · exact hlive
  · decide

/-- An instruction run in a core that has not failed fails exactly for a reason of `Raises`. -/
theorem exec_faulted_iff (h : exec i s = .next t) (hlive : s.exec ≠ .faulted) :
    t.exec = .faulted ↔ ∃ kind addr, Raises s i kind addr := by
  constructor
  · intro hfault
    rcases exec_next_cases h with hc | ⟨kind, addr, hr, _⟩
    · exact absurd hfault (hc.exec_ne_faulted hlive)
    · exact ⟨kind, addr, hr⟩
  · rintro ⟨kind, addr, hr⟩
    cases h.symm.trans hr.exec_eq
    rfl

/-- The reasons of `Raises` as the statement lists them. -/
theorem raises_iff : (∃ kind addr, Raises s i kind addr) ↔
    (i = .ret ∧ s.sp.val = 0) ∨ (∃ nnn, i = .call nnn ∧ s.sp.val = 16) ∨
      (∃ n, accessSize i = some n ∧ 1 ≤ n ∧ s.i.toNat + n - 1 > 0xFFF) ∨
      (∃ x, (i = .skp x ∨ i = .sknp x) ∧ s.v[x].toNat > 15) := by
  constructor
  · rintro ⟨_, _, hr⟩
    cases hr with
    | ret h => exact .inl ⟨rfl, h⟩
    | call nnn h => exact .inr (.inl ⟨nnn, rfl, h⟩)
    | access _ n hn hpos hout => exact .inr (.inr (.inl ⟨n, hn, hpos, hout⟩))
    | skp x h => exact .inr (.inr (.inr ⟨x, .inl rfl, h⟩))
    | sknp x h => exact .inr (.inr (.inr ⟨x, .inr rfl, h⟩))
  · rintro (⟨rfl, h⟩ | ⟨nnn, rfl, h⟩ | ⟨n, hn, hpos, hout⟩ | ⟨x, rfl | rfl, h⟩)
    exacts [⟨_, _, .ret h⟩, ⟨_, _, .call nnn h⟩, ⟨_, _, .access i n hn hpos hout⟩, ⟨_, _, .skp x h⟩,
      ⟨_, _, .sknp x h⟩]

/-- The kind of the error tells the instruction that raised it (R420). -/
theorem Raises.kind_iff (h : Raises s i kind addr) :
    (kind = .stackUnderflow ↔ i = .ret) ∧ (kind = .stackOverflow ↔ ∃ nnn, i = .call nnn) ∧
      (kind = .memoryOutOfBounds ↔ (accessSize i).isSome = true) ∧
      (kind = .keyOutOfRange ↔ ∃ x, i = .skp x ∨ i = .sknp x) := by
  cases h with
  | access _ n hn _ _ => cases i <;> simp_all [accessSize]
  | _ => simp [accessSize]

/-- Settles O50: the instruction fails for one of its reasons, and then the record holds its opcode and the kind. -/
theorem instructionsFailExactlyWhen : Obligations.InstructionsFailExactlyWhen := by
  intro i s t h hlive
  have hiff := exec_faulted_iff h hlive
  refine ⟨hiff.trans raises_iff, fun hfault => ?_⟩
  rcases exec_next_cases h with hc | ⟨kind, addr, hr, rfl⟩
  · exact absurd hfault (hc.exec_ne_faulted hlive)
  · exact ⟨_, rfl, rfl, hr.kind_iff⟩

end Sys2Proof.Machine
end

section
/-! What a step can do, said once (40_cycle.md R152, R153, R160 to R168): the ends of a cycle, and one case lemma for each
host operation that has cases. The rules on a whole step follow: the invariant, the parameters, the execution state, the
one refusal, and the timers over a cycle. -/

namespace Sys2Proof.Machine

variable {i : Instr} {s t : State} {keys : Vector Bool 16} {rand : Byte}

/-! ## The ends of a cycle -/

/-- `CycleEnd s keys rand t`: the ways a cycle with these inputs can end, with the state `t` it leaves. -/
inductive CycleEnd (s : State) (keys : Vector Bool 16) (rand : Byte) : State → Prop
  | noFetch (hrun : s.exec = .running) (hbad : fetchOK s.pc = false) :
      CycleEnd s keys rand ((s.beginCycle keys rand).enterFault (invalidPCRecord s.pc)).abortCycle
  | ran (i : Instr) (t : State) (hrun : s.exec = .running) (hok : fetchOK s.pc = true)
      (hd : decode (s.fetchWord s.pc) = .ok i) (hexec : exec i (s.beginCycle keys rand).advance = .next t) :
      CycleEnd s keys rand t.afterExec
  | strict (hrun : s.exec = .running) (hok : fetchOK s.pc = true)
      (hd : decode (s.fetchWord s.pc) = .error (.unknown (s.fetchWord s.pc))) :
      CycleEnd s keys rand
        ((s.beginCycle keys rand).advance.enterFault (unknownRecord (s.fetchWord s.pc) s.pc)).abortCycle
  | lenient (hrun : s.exec = .running) (hok : fetchOK s.pc = true)
      (hd : decode (s.fetchWord s.pc) = .error (.unknown (s.fetchWord s.pc))) :
      CycleEnd s keys rand
        ((s.beginCycle keys rand).advance.endCycle (.warn (unknownRecord (s.fetchWord s.pc) s.pc)))
  | waits (hwait : s.exec = .waitingForKey) :
      CycleEnd s keys rand { s.sample keys with status := .ok, events := [] }
  | resolves (hwait : s.exec = .waitingForKey) (k : Key) (hk : KeyEdge s.keyCur keys k) :
      CycleEnd s keys rand (State.resolveWait { s.sample keys with status := .ok, events := [] } k)
  | failed (hfault : s.exec = .faulted) : CycleEnd s keys rand s.abortCycle

theorem decode_error_eq {op : Word} {e : DecodeError} (h : decode op = .error e) : decode op = .error (.unknown op) :=
  decode_eq_unknown_of_not_ok fun ⟨_, hi⟩ => nomatch h.symm.trans hi

/-- A waiting cycle stays in the wait, or resolves it with a key that went down (R366). -/
theorem waitCycle_cases (s : State) (keys : Vector Bool 16) :
    s.waitCycle keys = { s.sample keys with status := .ok, events := [] } ∨
    ∃ k, KeyEdge s.keyCur keys k ∧
      s.waitCycle keys = State.resolveWait { s.sample keys with status := .ok, events := [] } k := by
  cases hscan : State.firstKeyDown { s.sample keys with status := .ok, events := [] } with
  | none => exact .inl (by simp only [State.waitCycle, hscan])
  | some k =>
    exact .inr ⟨k, (transitionedDown_iff _ k).mp (List.find?_some hscan), by simp only [State.waitCycle, hscan]⟩

/-- Every cycle answers a next state, and ends in one of the ways of `CycleEnd`. -/
theorem cycle_ends (s : State) (keys : Vector Bool 16) (rand : Byte) :
    ∃ t, s.cycle keys rand = .next t ∧ CycleEnd s keys rand t := by
  cases hexec : s.exec with
  | running =>
    rw [cycle_running hexec]
    rcases runCycle_cases s keys rand with ⟨hbad, hr⟩ | ⟨hok, hr⟩ <;> rw [hr]
    · exact ⟨_, rfl, .noFetch hexec hbad⟩
    · rcases dispatchWord_cases (s.beginCycle keys rand) (s.fetchWord s.pc) with
        ⟨i, t, hd, hx, hr⟩ | ⟨e, hd, _, hr⟩ | ⟨e, hd, _, hr⟩ <;> rw [hr]
      · exact ⟨_, rfl, .ran i t hexec hok hd hx⟩
      · exact ⟨_, rfl, .strict hexec hok (decode_error_eq hd)⟩
      · exact ⟨_, rfl, .lenient hexec hok (decode_error_eq hd)⟩
  | waitingForKey =>
    rw [cycle_waiting hexec]
    rcases waitCycle_cases s keys with hw | ⟨k, hk, hw⟩ <;> rw [hw]
    · exact ⟨_, rfl, .waits hexec⟩
    · exact ⟨_, rfl, .resolves hexec k hk⟩
  | faulted => exact ⟨_, cycle_faulted hexec keys rand, .failed hexec⟩

theorem cycleEnd_of_cycle (h : s.cycle keys rand = .next t) : CycleEnd s keys rand t := by
  obtain ⟨u, hu, hend⟩ := cycle_ends s keys rand
  cases h.symm.trans hu
  exact hend

/-- What follows dispatch writes the timers and the result only. -/
theorem afterExec_frame (s : State) :
    s.afterExec = { s with dt := s.afterExec.dt, st := s.afterExec.st, events := s.afterExec.events,
                           status := s.afterExec.status } := by
  by_cases h : s.exec = .faulted
  · rw [afterExec_faulted s h]
    rfl
  · rw [afterExec_live s h, endCycle_frame]

/-! ## The host operations with cases -/

/-- `load_program` does nothing in `Faulted`, fails on a ROM that is too large, and else copies it (R162). -/
theorem loadProgram_cases (s : State) (rom : List Byte) :
    (s.exec = .faulted ∧ s.loadProgram rom = s.abortCycle) ∨
    (s.exec ≠ .faulted ∧ rom.length > Config.maxRomBytes ∧ s.loadProgram rom =
      (s.enterFault { kind := .romTooLarge, opcode := none, pc := s.pc, addr := none }).abortCycle) ∨
    (s.exec ≠ .faulted ∧ rom.length ≤ Config.maxRomBytes ∧ s.loadProgram rom =
      { s.writeBytes Config.programBase rom with status := .ok, events := [] }) := by
  by_cases hfault : s.exec = .faulted
  · exact .inl ⟨hfault, loadProgram_faulted s hfault⟩
  · rcases Nat.lt_or_ge Config.maxRomBytes rom.length with hlen | hlen
    · exact .inr (.inl ⟨hfault, hlen, loadProgram_tooLarge s hfault hlen⟩)
    · exact .inr (.inr ⟨hfault, hlen, loadProgram_fits s hfault hlen⟩)

/-- `timer_tick` writes the timers and the events only (R163). -/
theorem timerTick_frame (h : s.timerTick = .next t) : t = { s with dt := t.dt, st := t.st, events := t.events } := by
  cases hcoupling : s.params.timerCoupling with
  | coupled => cases h.symm.trans (timerTick_coupled hcoupling)
  | decoupled =>
    by_cases hfault : s.exec = .faulted
    · cases h.symm.trans (timerTick_faulted hcoupling hfault)
      rfl
    · cases h.symm.trans (timerTick_live hcoupling hfault)
      rfl

/-! ## The one refusal (R163) -/

/-- Settles O25: every cycle and every other host operation answers a next state, and `timer_tick` does under
`Decoupled`. -/
theorem stepRefusesOnlyCoupledTimerTick : Obligations.StepRefusesOnlyCoupledTimerTick := by
  intro s
  rcases step_cases s with ⟨op, ops, hops, hstep⟩ | ⟨_, hstep⟩ <;> rw [hstep]
  · cases op with
    | reset | loadProgram | ackDraw | view => exact .inl ⟨_, rfl⟩
    | cycle keys rand => exact .inl ((cycle_ends _ keys rand).imp fun _ h => h.1)
    | timerTick =>
      cases hcoupling : s.params.timerCoupling with
      | coupled => exact .inr ⟨timerTick_coupled hcoupling, rfl, ops, hops⟩
      | decoupled =>
        by_cases hfault : s.exec = .faulted
        · exact .inl ⟨_, timerTick_faulted hcoupling hfault⟩
        · exact .inl ⟨_, timerTick_live hcoupling hfault⟩
  · exact .inl ((cycle_ends ..).imp fun _ h => h.1)

/-! ## The parameters -/

/-- What an instruction keeps, however it ends. -/
theorem exec_keeps (h : exec i s = .next t) : Keeps s t := by
  rcases exec_shape i s with ⟨_, hr, _⟩ | ⟨_, hu, _, hkeeps, _⟩
  · cases h.symm.trans hr
    exact ⟨rfl, rfl, rfl, rfl, rfl, rfl⟩
  · cases h.symm.trans hu
    exact hkeeps

theorem CycleEnd.params_eq (h : CycleEnd s keys rand t) : t.params = s.params := by
  cases h
  case ran i u _ _ _ hexec =>
    rw [afterExec_frame]
    exact (exec_keeps hexec).params.trans rfl
  case lenient => rw [endCycle_frame]; rfl
  all_goals rfl

theorem runHostOp_params {op : HostOp} (h : s.runHostOp op = .next t) : t.params = s.params := by
  cases op with
  | cycle keys rand => exact (cycleEnd_of_cycle h).params_eq
  | timerTick => rw [timerTick_frame h]
  | loadProgram rom =>
    cases h
    rcases loadProgram_cases s rom with ⟨_, hl⟩ | ⟨_, _, hl⟩ | ⟨_, _, hl⟩ <;> rw [hl] <;> rfl
  | reset | ackDraw | view =>
    cases h
    rfl

/-- Settles O28: neither a cycle nor any other host operation writes the parameters. -/
theorem parametersNeverChange : Obligations.ParametersNeverChange := by
  intro s t h
  rcases step_cases s with ⟨op, ops, _, hstep⟩ | ⟨_, hstep⟩
  · exact (runHostOp_params (hstep.symm.trans h)).trans rfl
  · exact (cycleEnd_of_cycle (hstep.symm.trans h)).params_eq

/-! ## The invariant -/

/-- The elements that `State.Inv` speaks of. -/
def State.guarded (s : State) : Params × Memory × ExecState × Option ErrorRecord × Word × Vector Word 16 :=
  (s.params, s.mem, s.exec, s.fault, s.pc, s.stack)

theorem State.Inv.congr (h : s.Inv) (he : t.guarded = s.guarded) : t.Inv := by
  simp only [State.guarded, Prod.mk.injEq] at he
  obtain ⟨hparams, hmem, hexec, hfault, hpc, hstack⟩ := he
  exact ⟨by rw [hparams, hmem]; exact h.memWf, by rw [hexec, hfault]; exact h.faultIff,
    by rw [hfault]; exact h.faultOk, by rw [hpc]; exact h.pcBound, by rw [hstack]; exact h.stackBound⟩

/-- Entering a fault with a record that says what its kind asks keeps the invariant (R426). -/
theorem State.Inv.enterFault {r : ErrorRecord} (h : s.Inv) (hr : r.Consistent) : (s.enterFault r).Inv :=
  ⟨h.memWf, iff_of_true rfl rfl, fun _ he => Option.some.inj he ▸ hr, h.pcBound, h.stackBound⟩

/-- Changing `Exec` keeps the invariant while neither value is `Faulted`. -/
theorem State.Inv.setExec {e : ExecState} (h : s.Inv) (hlive : s.exec ≠ .faulted) (he : e ≠ .faulted) :
    ({ s with exec := e } : State).Inv :=
  ⟨h.memWf, iff_of_false he (mt h.faultIff.mpr hlive), h.faultOk, h.pcBound, h.stackBound⟩

theorem State.Inv.setPc {w : Word} (h : s.Inv) (hw : w.toNat ≤ 0x10FE) : ({ s with pc := w } : State).Inv :=
  ⟨h.memWf, h.faultIff, h.faultOk, hw, h.stackBound⟩

theorem State.Inv.writeBytes {a : Nat} {vs : List Byte} (h : s.Inv) (ha : a + vs.length ≤ Config.memSize) :
    (s.writeBytes a vs).Inv :=
  ⟨wf_writeBytes s a vs h.memWf ha, h.faultIff, h.faultOk, h.pcBound, h.stackBound⟩

/-- A pushed address is the `PC` after a fetch, so a slot holds at most `0xFFE` (R157, R192). -/
theorem State.Inv.setSlot {w : Word} (j : Fin 16) (h : s.Inv) (hw : w.toNat ≤ 0xFFE) :
    ({ s with stack := s.stack.set j w } : State).Inv := by
  refine ⟨h.memWf, h.faultIff, h.faultOk, h.pcBound, fun k => ?_⟩
  by_cases hjk : j.val = k.val
  · simpa [hjk] using hw
  · simpa [hjk] using h.stackBound k

/-- The record that an instruction raises right after a fetch says what its kind asks (R420, R427). -/
theorem Raises.consistent {kind : ErrorKind} {addr : Option Nat} (h : Raises s i kind addr)
    (hok : fetchOK s.fetchAddr = true) :
    ErrorRecord.Consistent { kind := kind, opcode := some (encode i), pc := s.fetchAddr, addr := addr } := by
  cases h with
  | ret => exact ⟨rfl, hok, rfl⟩
  | call nnn => exact ⟨⟨nnn, rfl⟩, hok, rfl⟩
  | access i n hn =>
    exact ⟨⟨i, Option.isSome_of_eq_some hn, rfl⟩, hok, _, rfl, Nat.le_max_right .., by
      have := s.i.isLt
      rw [outOfBoundsAddr]
      omega⟩
  | skp x => exact ⟨⟨x, .inl rfl⟩, hok, rfl⟩
  | sknp x => exact ⟨⟨x, .inr rfl⟩, hok, rfl⟩

/-- An instruction that completes right after a fetch keeps the invariant. -/
theorem Completes.inv (hc : Completes s i t) (h : s.Inv) (hlive : s.exec ≠ .faulted) (hpc : s.pc.toNat ≤ 0xFFE) :
    t.Inv := by
  cases hc
  case ret j _ => exact (h.setPc ((h.stackBound j).trans (by decide))).congr rfl
  case call nnn j _ => exact ((h.setSlot j hpc).setPc (zextAddr_toNat_le nnn)).congr rfl
  case moves w hw =>
    refine h.setPc ?_
    rcases hw with rfl | rfl | hw
    · exact h.pcBound
    · bv_omega
    · exact hw
  case ldBVx x vs hvs => exact h.writeBytes hvs
  case ldMemVx x vs hvs => exact h.writeBytes hvs
  case ldVxK x => exact (h.setExec hlive (by decide)).congr rfl
  all_goals exact h.congr rfl

/-- The advance after a fetch, and where the instruction then finds its fetch address (R157). -/
theorem State.Inv.advance (h : s.Inv) (hok : fetchOK s.pc = true) :
    s.advance.Inv ∧ s.advance.pc.toNat ≤ 0xFFE ∧ s.advance.fetchAddr = s.pc := by
  obtain ⟨_, _, hle⟩ := (fetchOK_iff s.pc).mp hok
  have hpc : (s.pc + 2).toNat ≤ 0xFFE := by bv_omega
  exact ⟨h.setPc (hpc.trans (by decide)), hpc, BitVec.add_sub_cancel ..⟩

/-- An instruction dispatched from a fetchable address keeps the invariant, whether it completes or fails. -/
theorem exec_advance_inv (h : exec i s.advance = .next t) (hinv : s.Inv) (hlive : s.exec ≠ .faulted)
    (hok : fetchOK s.pc = true) : t.Inv := by
  obtain ⟨hadv, hpc, hfetch⟩ := hinv.advance hok
  rcases exec_next_cases h with hc | ⟨kind, addr, hr, rfl⟩
  · exact hc.inv hadv hlive hpc
  · exact hadv.enterFault (hr.consistent (hfetch ▸ hok))

theorem CycleEnd.inv (hend : CycleEnd s keys rand t) (h : s.Inv) : t.Inv := by
  have hbegin : (s.beginCycle keys rand).Inv := h.congr rfl
  cases hend with
  | noFetch hrun hbad => exact (hbegin.enterFault (r := invalidPCRecord s.pc) ⟨rfl, hbad, rfl⟩).congr rfl
  | ran i u hrun hok hd hexec =>
    have hlive : s.exec ≠ .faulted := hrun ▸ (by decide)
    exact (exec_advance_inv hexec hbegin hlive hok).congr (by rw [afterExec_frame]; rfl)
  | strict hrun hok hd =>
    exact ((hbegin.advance hok).1.enterFault (r := unknownRecord (s.fetchWord s.pc) s.pc)
      ⟨⟨_, rfl, hd⟩, hok, rfl⟩).congr rfl
  | lenient hrun hok hd => exact (hbegin.advance hok).1.congr (by rw [endCycle_frame]; rfl)
  | waits hwait => exact h.congr rfl
  | resolves hwait k hk => exact (h.setExec (e := .running) (hwait ▸ (by decide)) (by decide)).congr rfl
  | failed hfault => exact h.congr rfl

/-- Reset makes the invariant true in any state (R47, R460). -/
theorem hostReset_inv (s : State) : s.hostReset.Inv :=
  ⟨rfl, ⟨nofun, nofun⟩, nofun, (by decide : (0x200#16).toNat ≤ 0x10FE), fun j => by simp [State.hostReset, State.reset]⟩

theorem loadProgram_inv (h : s.Inv) (rom : List Byte) : (s.loadProgram rom).Inv := by
  rcases loadProgram_cases s rom with ⟨_, hl⟩ | ⟨_, _, hl⟩ | ⟨_, hfits, hl⟩ <;> rw [hl]
  · exact h.congr rfl
  · exact (h.enterFault (r := { kind := .romTooLarge, opcode := none, pc := s.pc, addr := none })
      ⟨rfl, rfl⟩).congr rfl
  · exact (h.writeBytes (Nat.add_le_add_left hfits Config.programBase)).congr rfl

theorem runHostOp_inv {op : HostOp} (h : s.runHostOp op = .next t) (hinv : s.Inv) : t.Inv := by
  cases op with
  | reset =>
    cases h
    exact hostReset_inv s
  | loadProgram rom =>
    cases h
    exact loadProgram_inv hinv rom
  | cycle keys rand => exact (cycleEnd_of_cycle h).inv hinv
  | timerTick => exact hinv.congr (by rw [timerTick_frame h]; rfl)
  | ackDraw =>
    cases h
    exact hinv.congr rfl
  | view =>
    cases h
    exact hinv

/-- Settles O27: taking the operation off the queue leaves the guarded elements alone, and the cycle and every other
host operation keep the invariant. -/
theorem stepKeepsInvariant : Obligations.StepKeepsInvariant := by
  intro s t hinv h
  rcases step_cases s with ⟨op, ops, _, hstep⟩ | ⟨_, hstep⟩
  · exact runHostOp_inv (hstep.symm.trans h) (hinv.congr rfl)
  · exact (cycleEnd_of_cycle (hstep.symm.trans h)).inv (hinv.congr rfl)

/-- Settles O26: the state after reset is what the host's reset makes of it. -/
theorem resetSatisfiesInvariant : Obligations.ResetSatisfiesInvariant := hostReset_inv State.reset

end Sys2Proof.Machine
end

section
/-! The encoding (30_encoding.md): the round trip, the disjoint rows of the opcode map, the unknown words in numbers, and
the bytes of a listing. -/

namespace Sys2Proof

variable {op : Word}

/-- Settles O1: each word is decoded in its family. -/
theorem decodesWrittenOutWords : Obligations.DecodesWrittenOutWords :=
  ⟨rfl, rfl, rfl, rfl, rfl, rfl, rfl, rfl, rfl, rfl, rfl⟩

/-- Settles O2: the fields of the packed word are the operands. -/
theorem decodeOfEncode : Obligations.DecodeOfEncode := decode_encode

/-- Settles O3: the decoder's answer is sound, so a decoded instruction packs to the word. -/
theorem encodeOfDecode : Obligations.EncodeOfDecode := fun _ _ => encode_eq_of_decode

/-! ## The rows of the opcode map (R121) -/

/-- Two different rows disagree on a bit that both masks fix. -/
theorem opcodeTable_rows_disagree :
    ∀ r₁ ∈ opcodeTable, ∀ r₂ ∈ opcodeTable, r₁.pattern &&& r₂.mask = r₂.pattern &&& r₁.mask → r₁ = r₂ := by
  decide

/-- Settles O5: a word that two rows select has both patterns on the bits that both masks fix. -/
theorem opcodeMapRowsAreDisjoint : Obligations.OpcodeMapRowsAreDisjoint := by
  refine ⟨rfl, fun r₁ h₁ r₂ h₂ op hop₁ hop₂ => opcodeTable_rows_disagree r₁ h₁ r₂ h₂ ?_⟩
  rw [← hop₁, ← hop₂, BitVec.and_assoc, BitVec.and_assoc, BitVec.and_comm r₁.mask]

/-! ## The unknown words, family by family (R122) -/

theorem decode0_unknown_iff : decode0 op = .error (.unknown op) ↔ op.toNat ≠ 0x00E0 ∧ op.toNat ≠ 0x00EE := by
  unfold decode0
  split
  · simp
  · simp
  · rename_i h₁ h₂
    simp only [imp_false] at h₁ h₂
    simp only [true_iff]
    bv_omega

/-- The sub-opcodes of family 8 are `0..7` and `E`. -/
theorem decode8_unknown_iff :
    decode8 op = .error (.unknown op) ↔ op.toNat % 16 ∈ [8, 9, 10, 11, 12, 13, 15] := by
  rw [← fieldN_toNat]
  unfold decode8
  split
  iterate 9 simp [*]
  simp only [imp_false] at *
  simp only [List.mem_cons, List.not_mem_nil, or_false, true_iff]
  bv_omega

theorem decodeE_unknown_iff : decodeE op = .error (.unknown op) ↔ op.toNat % 256 ∉ [0x9E, 0xA1] := by
  rw [← fieldNN_toNat]
  unfold decodeE
  split
  iterate 2 simp [*]
  simp only [imp_false] at *
  simp only [List.mem_cons, List.not_mem_nil, or_false, true_iff]
  bv_omega

theorem decodeF_unknown_iff : decodeF op = .error (.unknown op) ↔
    op.toNat % 256 ∉ [0x07, 0x0A, 0x15, 0x18, 0x1E, 0x29, 0x33, 0x55, 0x65] := by
  rw [← fieldNN_toNat]
  unfold decodeF
  split
  iterate 9 simp [*]
  simp only [imp_false] at *
  simp only [List.mem_cons, List.not_mem_nil, or_false, true_iff]
  bv_omega

/-- Settles O6: the family of a word is its top digit, and each family has its unknown words. -/
theorem unknownWordsByFamily : Obligations.UnknownWordsByFamily := by
  intro op
  have ht : op.toNat / 4096 = (fieldT op).toNat := by
    rw [fieldT_toNat]
    omega
  have hlow : op.toNat < 0x1000 ↔ op.toNat / 4096 = 0 := by omega
  have hn : fieldN op = 0#4 ↔ op.toNat % 16 = 0 := by
    rw [← fieldN_toNat]
    exact BitVec.toNat_inj (y := 0#4).symm
  rw [hlow, ht]
  -- Families 0, 8, E and F have lemmas of their own, 5 and 9 look at the low digit, the others have no unknown word.
  unfold decode
  split
  · simp [*, decode0_unknown_iff]
  iterate 7 simp [*]
  · simp [*, decode8_unknown_iff]
  iterate 5 simp [*]
  · simp [*, decodeE_unknown_iff]
  · have hF : fieldT op = 0xF#4 := by
      simp only [imp_false] at *
      bv_omega
    simp [*, decodeF_unknown_iff]

/-! ## Listings (R127, R128) -/

/-- Settles O7: the two bytes of the line make the opcode again, which decodes to the instruction. -/
theorem assembledInstructionIsReadBack : Obligations.AssembledInstructionIsReadBack := by
  refine fun i rest => ⟨?_, rfl, rfl⟩
  have hbytes : Machine.assemble (.insn i :: rest) =
      highByte (encode i) :: lowByte (encode i) :: Machine.assemble rest := rfl
  rw [hbytes, decodeBytes, wordOfBytes_high_low, decode_encode]

end Sys2Proof
end

section
/-! Rules on whole cycles: the transitions of the execution state (10_state.md R43), the timers over a cycle
(46_timers.md R390), and a wait that no edge ends (45_keypad.md R366). -/

namespace Sys2Proof.Machine

variable {s s0 t : State} {keys : Vector Bool 16} {rand : Byte}

/-! ## The execution state -/

theorem CycleEnd.exec_of_running (h : CycleEnd s keys rand t) (hrun : s.exec = .running) :
    t.exec = .running ∨ (t.exec = .faulted ∧ t.fault.isSome = true) ∨
      (t.exec = .waitingForKey ∧ decode (s.fetchWord s.pc) = .ok (.ldVxK t.waitReg)) := by
  cases h
  case noFetch => exact .inr (.inl ⟨rfl, rfl⟩)
  case ran i u _ _ hd hexec =>
    rw [afterExec_frame]
    rcases exec_next_cases hexec with hc | ⟨_, _, _, rfl⟩
    · rcases hc.exec_eq with he | ⟨he, rfl⟩
      · exact .inl (he.trans hrun)
      · exact .inr (.inr ⟨he, hd⟩)
    · exact .inr (.inl ⟨rfl, rfl⟩)
  case strict => exact .inr (.inl ⟨rfl, rfl⟩)
  case lenient =>
    rw [endCycle_frame]
    exact .inl hrun
  case waits hwait => exact nomatch hrun.symm.trans hwait
  case resolves hwait _ _ => exact nomatch hrun.symm.trans hwait
  case failed hfault => exact nomatch hrun.symm.trans hfault

theorem CycleEnd.exec_of_waiting (h : CycleEnd s keys rand t) (hwait : s.exec = .waitingForKey) :
    t.exec = .waitingForKey ∨ (t.exec = .running ∧ ∃ k : Key, KeyEdge s.keyCur t.keyCur k) := by
  cases h
  case waits => exact .inl hwait
  case resolves k hk => exact .inr ⟨rfl, k, hk⟩
  case failed hfault => exact nomatch hwait.symm.trans hfault
  all_goals exact nomatch hwait.symm.trans ‹s.exec = .running›

theorem CycleEnd.exec_of_faulted (h : CycleEnd s keys rand t) (hfault : s.exec = .faulted) :
    t.exec = .faulted ∧ t.fault = s.fault := by
  cases h
  case failed => exact ⟨hfault, rfl⟩
  case waits hwait => exact nomatch hfault.symm.trans hwait
  case resolves hwait _ _ => exact nomatch hfault.symm.trans hwait
  all_goals exact nomatch hfault.symm.trans ‹s.exec = .running›

/-- Where a step can lead from each execution state (R43, R161, R424, R426). -/
def ExecTransition (s t : State) : Prop :=
  (s.exec = .running →
    t.exec = .running ∨ (t.exec = .faulted ∧ t.fault.isSome = true) ∨
    (t.exec = .waitingForKey ∧ decode (s.fetchWord s.pc) = .ok (.ldVxK t.waitReg))) ∧
  (s.exec = .waitingForKey →
    t.exec = .waitingForKey ∨
    (t.exec = .running ∧ ((∃ k : Key, KeyEdge s.keyCur t.keyCur k) ∨ ∃ ops, s.hostOps = .reset :: ops)) ∨
    (t.exec = .faulted ∧ ∃ rom ops, s.hostOps = .loadProgram rom :: ops ∧ rom.length > 3584)) ∧
  (s.exec = .faulted →
    (t.exec = .faulted ∧ t.fault = s.fault) ∨ (t.exec = .running ∧ ∃ ops, s.hostOps = .reset :: ops))

/-- An operation that writes neither `Exec` nor `Fault` is no transition. -/
theorem execTransition_of_eq (hexec : t.exec = s.exec) (hfault : t.fault = s.fault) : ExecTransition s t :=
  ⟨fun h => .inl (hexec.trans h), fun h => .inl (hexec.trans h), fun h => .inl ⟨hexec.trans h, hfault⟩⟩

/-- A cycle, in a core that differs from `s` in the queue and the draw counter. -/
theorem execTransition_of_cycle {ops : List HostOp} {n : Nat}
    (h : CycleEnd { s with hostOps := ops, draws := n } keys rand t) : ExecTransition s t :=
  ⟨h.exec_of_running, fun hwait => (h.exec_of_waiting hwait).imp_right fun ⟨he, hk⟩ => .inl ⟨he, .inl hk⟩,
    fun hfault => .inl (h.exec_of_faulted hfault)⟩

theorem execTransition_of_loadProgram {rom : List Byte} {ops : List HostOp} (hops : s.hostOps = .loadProgram rom :: ops) :
    ExecTransition s (State.loadProgram { s with hostOps := ops } rom) := by
  rcases loadProgram_cases { s with hostOps := ops } rom with ⟨_, hl⟩ | ⟨hlive, hlong, hl⟩ | ⟨_, _, hl⟩ <;> rw [hl]
  · exact execTransition_of_eq rfl rfl
  · exact ⟨fun _ => .inr (.inl ⟨rfl, rfl⟩), fun _ => .inr (.inr ⟨rfl, rom, ops, hops, hlong⟩),
      fun hfault => absurd hfault hlive⟩
  · exact execTransition_of_eq rfl rfl

/-- Settles O29: the transitions of a cycle and of `load_program`, and reset; the other operations keep `Exec` and
`Fault`. -/
theorem execTransitions : Obligations.ExecTransitions := by
  intro s t h
  change ExecTransition s t
  rcases step_cases s with ⟨op, ops, hops, hstep⟩ | ⟨_, hstep⟩
  · have hop := hstep.symm.trans h
    cases op with
    | reset =>
      cases hop
      exact ⟨fun _ => .inl rfl, fun _ => .inr (.inl ⟨rfl, .inr ⟨ops, hops⟩⟩), fun _ => .inr ⟨rfl, ops, hops⟩⟩
    | loadProgram rom =>
      cases hop
      exact execTransition_of_loadProgram hops
    | cycle keys rand => exact execTransition_of_cycle (cycleEnd_of_cycle hop)
    | timerTick =>
      rw [timerTick_frame hop]
      exact execTransition_of_eq rfl rfl
    | ackDraw | view =>
      cases hop
      exact execTransition_of_eq rfl rfl
  · exact execTransition_of_cycle (cycleEnd_of_cycle (hstep.symm.trans h))

/-! ## The timers over a cycle -/

/-- A `Running` cycle that does not fail is the end of a cycle in a core whose timers are as before, but for the one that
the fetched instruction writes (R390, R394, R395). -/
theorem CycleEnd.eq_endCycle (h : CycleEnd s keys rand t) (hrun : s.exec = .running) (hlive : t.exec ≠ .faulted) :
    ∃ (u : State) (status : Status), t = u.endCycle status ∧ u.params = s.params ∧
      ((∀ x, decode (s.fetchWord s.pc) ≠ .ok (.ldDtVx x)) → u.dt = s.dt) ∧
      ((∀ x, decode (s.fetchWord s.pc) ≠ .ok (.ldStVx x)) → u.st = s.st ∧ u.events = []) := by
  cases h
  case noFetch => exact absurd rfl hlive
  case ran i u _ _ hd hexec =>
    rw [afterExec_exec] at hlive
    refine ⟨u, .ok, afterExec_live u hlive, (exec_keeps hexec).params.trans rfl, ?_⟩
    rcases exec_next_cases hexec with hc | ⟨_, _, _, rfl⟩
    · exact ⟨fun hi => hc.dt_eq fun x hx => hi x (hx ▸ hd), fun hi => hc.st_eq fun x hx => hi x (hx ▸ hd)⟩
    · exact absurd rfl hlive
  case strict => exact absurd rfl hlive
  case lenient => exact ⟨_, _, rfl, rfl, fun _ => rfl, fun _ => ⟨rfl, rfl⟩⟩
  case waits hwait => exact nomatch hrun.symm.trans hwait
  case resolves hwait _ _ => exact nomatch hrun.symm.trans hwait
  case failed hfault => exact nomatch hrun.symm.trans hfault

/-- In any other cycle the timers stay, and there is no event (R425, 40_cycle.md R166, R167). -/
theorem CycleEnd.timers_stay (h : CycleEnd s keys rand t) (hstop : s.exec ≠ .running ∨ t.exec = .faulted) :
    t.dt = s.dt ∧ t.st = s.st ∧ t.events = [] := by
  cases h
  case ran i u hrun _ _ hexec =>
    have hfault : u.exec = .faulted := (afterExec_exec u).symm.trans (hstop.resolve_left (absurd hrun))
    obtain ⟨r, rfl⟩ := exec_eq_enterFault hexec hrun hfault
    rw [afterExec_faulted _ hfault]
    exact ⟨rfl, rfl, rfl⟩
  case lenient hrun _ _ =>
    have hfault := hstop.resolve_left (absurd hrun)
    rw [endCycle_exec] at hfault
    exact nomatch hrun.symm.trans hfault
  all_goals exact ⟨rfl, rfl, rfl⟩

/-- Settles O16: the end of the cycle is one tick under `Coupled` and none under `Decoupled`. -/
theorem timersCountOncePerCycle : Obligations.TimersCountOncePerCycle := by
  intro s s0 t keys rand htakes hstep
  obtain ⟨hcycle, ops, n, rfl⟩ := step_of_takesCycle htakes
  have hend := cycleEnd_of_cycle (hcycle.symm.trans hstep)
  refine ⟨fun hrun hlive hcoupled => ?_, fun hrun hlive hdecoupled => ?_, hend.timers_stay⟩
  · obtain ⟨u, status, rfl, hparams, hdt, hst⟩ := hend.eq_endCycle hrun hlive
    rw [endCycle_coupled u status (hparams ▸ hcoupled)]
    refine ⟨fun hi => (countDown_toNat u.dt).trans (by rw [hdt hi]), fun hi => ?_⟩
    obtain ⟨hsteq, hevents⟩ := hst hi
    exact ⟨(countDown_toNat u.st).trans (by rw [hsteq]), (tick_events_toNat u).trans (by rw [hsteq, hevents]; rfl)⟩
  · obtain ⟨u, status, rfl, hparams, hdt, hst⟩ := hend.eq_endCycle hrun hlive
    rw [endCycle_decoupled u status (hparams ▸ hdecoupled)]
    exact ⟨hdt, hst⟩

/-! ## `Fx15` and then `Fy07` (70_reset_and_hazards.md R467) -/

/-- A run of one step more is the run from the state after the first step. -/
theorem run_succ {M : Host.Core} {s t : M.State} {n : Nat} (h : M.step s = .next t) :
    M.run (n + 1) s = M.run n t := by
  rw [Host.Core.run, h]

/-- A `Running` cycle under `Coupled` whose instruction leaves the core `Running` ends with one tick. -/
theorem step_coupled {i : Instr} {u : State} (h : s.TakesCycle keys rand s0) (hrun : s.exec = .running)
    (hok : fetchOK s.pc = true) (hd : decode (s.fetchWord s.pc) = .ok i)
    (hexec : exec i (s0.beginCycle keys rand).advance = .next u) (hlive : u.exec ≠ .faulted)
    (hcoupled : u.params.timerCoupling = .coupled) : step s = .next { u.tick with status := .ok } := by
  rw [step_fetched h hrun hok, dispatchWord_of_decode hd hexec, afterExec_live u hlive,
    endCycle_coupled u .ok hcoupled]

/-- A cycle under `Coupled` that runs `Fx15`: the tick counts the new value down. -/
theorem step_ldDtVx {x : Reg} {ops : List HostOp} (hops : s.hostOps = .cycle keys rand :: ops)
    (hrun : s.exec = .running) (hok : fetchOK s.pc = true) (hd : decode (s.fetchWord s.pc) = .ok (.ldDtVx x))
    (hcoupled : s.params.timerCoupling = .coupled) :
    ∃ t, step s = .next t ∧
      t = { s with hostOps := ops, pc := s.pc + 2, dt := countDown s.v[x], keyPrev := t.keyPrev, keyCur := t.keyCur,
                   rand := t.rand, st := t.st, events := t.events, status := t.status } :=
  ⟨_, step_coupled (.inl ⟨ops, hops, rfl⟩) hrun hok hd rfl (hrun ▸ (by decide)) hcoupled, rfl⟩

/-- A cycle under `Coupled` that runs `Fy07`: the timer is read before the tick. -/
theorem step_ldVxDt {y : Reg} {ops : List HostOp} (hops : s.hostOps = .cycle keys rand :: ops)
    (hrun : s.exec = .running) (hok : fetchOK s.pc = true) (hd : decode (s.fetchWord s.pc) = .ok (.ldVxDt y))
    (hcoupled : s.params.timerCoupling = .coupled) :
    ∃ t, step s = .next t ∧ t.v[y] = s.dt ∧ t.pc = s.pc + 2 :=
  ⟨_, step_coupled (.inl ⟨ops, hops, rfl⟩) hrun hok hd rfl (hrun ▸ (by decide)) hcoupled,
    setReg_v_same _ y s.dt, rfl⟩

/-- Settles O17: the tick of the first cycle takes the written delay timer down before the second cycle reads it. -/
theorem writtenDelayTimerReadsBackOneLess : Obligations.WrittenDelayTimerReadsBackOneLess := by
  intro s x y k₁ k₂ r₁ r₂ hrun hcoupled hops heven hlo hhi hd₁ hd₂
  have hok₁ : fetchOK s.pc = true := (fetchOK_iff _).mpr (by omega)
  have hok₂ : fetchOK (s.pc + 2) = true := (fetchOK_iff _).mpr (by bv_omega)
  obtain ⟨t, hstep₁, ht⟩ := step_ldDtVx hops hrun hok₁ hd₁ hcoupled
  have hpc : t.pc = s.pc + 2 := congrArg State.pc ht
  have hfetch : t.fetchWord t.pc = s.fetchWord (s.pc + 2) := congrArg (fun u => u.fetchWord u.pc) ht
  obtain ⟨u, hstep₂, hv, hpc₂⟩ := step_ldVxDt (y := y) (s := t) (congrArg State.hostOps ht)
    ((congrArg State.exec ht).trans hrun) ((congrArg fetchOK hpc).trans hok₂) ((congrArg decode hfetch).trans hd₂)
    ((congrArg (fun u => u.params.timerCoupling) ht).trans hcoupled)
  refine ⟨u, (run_succ (M := core) hstep₁).trans (run_succ (M := core) hstep₂), ?_, ?_⟩
  · rw [hv, congrArg State.dt ht, countDown_toNat]
  · rw [hpc₂, hpc, BitVec.add_assoc]
    rfl

/-! ## Held keys -/

/-- A key that is down in both samples, or up in both, has no edge (R362). -/
theorem not_keyEdge_self (keys : Vector Bool 16) (k : Key) : ¬KeyEdge keys keys k := fun ⟨hdown, hup⟩ =>
  Bool.false_ne_true (hup.symm.trans hdown)

/-- Settles O13, by induction on the number of cycles: each one finds no edge and leaves the same sample. -/
theorem heldKeysNeverResolveTheWait : Obligations.HeldKeysNeverResolveTheWait := by
  intro n s rand
  induction n generalizing s with
  | zero => exact fun hwait _ => ⟨s, rfl, hwait, rfl, rfl, rfl, rfl, rfl⟩
  | succ n ih =>
    intro hwait hops
    have hstep : step s = .next { s.sample s.keyCur with
        hostOps := List.replicate n (.cycle s.keyCur rand), status := .ok, events := [] } :=
      (step_waiting (.inl ⟨_, hops, rfl⟩) hwait).trans (congrArg _ (waitCycle_of_no_edge (not_keyEdge_self _)))
    obtain ⟨t, hrun, ht⟩ := ih { s.sample s.keyCur with
      hostOps := List.replicate n (.cycle s.keyCur rand), status := .ok, events := [] } hwait rfl
    exact ⟨t, (run_succ (M := core) hstep).trans hrun, ht⟩

end Sys2Proof.Machine
end

section
/-! Memory and the host: the word that `withFetchWord` places (20_memory.md R86), the bytes that `Fx55` stores as an
opcode, reset in any state (70_reset_and_hazards.md R460), and the view (40_cycle.md R165). -/

namespace Sys2Proof.Machine

variable {s : State} {x y : Nat}

/-! ## Two bytes as an opcode (R86) -/

theorem wordOfBytes_toNat (hi lo : Byte) : (wordOfBytes hi lo).toNat = hi.toNat * 256 + lo.toNat := by
  rw [wordOfBytes, BitVec.toNat_ofNat]
  omega

/-- Two bytes written at an address are fetched from it as one word. -/
theorem fetchWord_writeBytes {hi lo : Byte} (a : Word) (hwf : Memory.wf s.params.font s.mem = true)
    (ha : a.toNat + 2 ≤ Config.memSize) : (s.writeBytes a.toNat [hi, lo]).fetchWord a = wordOfBytes hi lo :=
  congrArg₂ wordOfBytes (readByte_writeBytes_inside s a.toNat 0 [hi, lo] hwf ha Nat.zero_lt_two)
    (readByte_writeBytes_inside s a.toNat 1 [hi, lo] hwf ha Nat.one_lt_two)

theorem fetchOK_placeAddr (s : State) : fetchOK s.placeAddr = true := by
  unfold State.placeAddr
  split
  · assumption
  · decide

/-- A queue whose head is no cycle is emptied, so the next step takes a cycle in any case (log entry 10). -/
theorem placeWord_takesCycle (s : State) (op : Word) : ∃ keys rand s0, (s.placeWord op).TakesCycle keys rand s0 := by
  by_cases hcycle : nextIsCycle s.hostOps = true
  · have hkept : (s.placeWord op).hostOps = s.hostOps := if_pos hcycle
    cases hops : s.hostOps with
    | nil => exact ⟨_, _, _, .inr ⟨hkept.trans hops, rfl, rfl, rfl⟩⟩
    | cons head ops =>
      cases head with
      | cycle keys rand => exact ⟨keys, rand, _, .inl ⟨ops, hkept.trans hops, rfl⟩⟩
      | _ => simp [hops, nextIsCycle] at hcycle
  · exact ⟨_, _, _, .inr ⟨if_neg hcycle, rfl, rfl, rfl⟩⟩

/-- Settles O18: the two bytes of the word stand at the fetchable address that `PC` is set to. -/
theorem placedWordIsFetchedNext : Obligations.PlacedWordIsFetchedNext := by
  intro s w hwf
  have hok := fetchOK_placeAddr s
  obtain ⟨_, _, hle⟩ := (fetchOK_iff _).mp hok
  have hfetch := (fetchWord_writeBytes s.placeAddr hwf (Nat.add_le_of_le_sub (by decide) (hle.trans (by decide)))).trans
    (wordOfBytes_high_low (op := BitVec.ofNat 16 (w % 2 ^ 16)))
  have hw : BitVec.ofNat 16 (w % 2 ^ 16) = BitVec.ofNat 16 w := by
    apply BitVec.eq_of_toNat_eq
    simp
  exact ⟨rfl, hok, hfetch.trans hw, placeWord_takesCycle ..⟩

/-- Settles O51: the bytes at `I` and `I + 1` are the `V0` and `V1` that `Fx55` stored. -/
theorem storedBytesAreFetched : Obligations.StoredBytesAreFetched := by
  intro s t x hx hin hwf h
  obtain ⟨_, hstore, _⟩ := storeRegistersAtI s x
  obtain ⟨u, hu, _, hread, _⟩ := hstore hin hwf
  cases h.symm.trans hu
  have h0 : t.readByte s.i.toNat = s.v[(0 : Reg)] := hread 0 (Fin.zero_le x)
  have h1 : t.readByte (s.i.toNat + 1) = s.v[(1 : Reg)] := hread 1 hx
  rw [State.fetchWord, wordOfBytes_toNat, h0, h1]

/-! ## Reset and the view -/

/-- Settles O20: the step is `hostReset`, which lists no cell of memory. -/
theorem hostResetInAnyState : Obligations.HostResetInAnyState := by
  intro s ops hops
  have hmem (a : Nat) : (State.hostReset { s with hostOps := ops }).readByte a = fillByte s.params.font a :=
    readByte_of_mem_eq_nil rfl
  exact ⟨_, step_of_hostOps hops, rfl, fun a ha => (hmem a).trans (fillByte_of_lt ha),
    fun a ha => (hmem a).trans (fillByte_of_le ha)⟩

/-- Rows of 64 cells put one after the other: cell `x` of row `y` stands at `y * 64 + x`. -/
theorem getElem?_flatMap_rows (rows : List (Vector Bool 64)) (y : Nat) (hx : x < 64) :
    (rows.flatMap Vector.toList)[y * 64 + x]? = rows[y]?.map (·[x]) := by
  induction rows generalizing y with
  | nil => rfl
  | cons row rows ih =>
    rw [List.flatMap_cons]
    cases y with
    | zero => simp [List.getElem?_append_left, hx]
    | succ y =>
      have hidx : (y + 1) * 64 + x - row.toList.length = y * 64 + x := by
        rw [Vector.length_toList]
        omega
      rw [List.getElem?_append_right (by rw [Vector.length_toList]; omega), hidx, ih, List.getElem?_cons_succ]

theorem view_cells_length (s : State) : s.view.cells.length = 2048 := by
  simp [State.view, List.length_flatMap]

/-- The cell in column `x` of row `y` (10_state.md R40). -/
theorem view_cells_getElem? (s : State) (hx : x < 64) (hy : y < 32) :
    s.view.cells[y * 64 + x]? = some (Frame.cell s.fb x y) := by
  have hrow : s.fb.toList[y]? = some s.fb[y] := by simp [hy]
  simp only [State.view, getElem?_flatMap_rows _ _ hx, hrow, Frame.cell, Nat.mod_eq_of_lt hx, Nat.mod_eq_of_lt hy,
    Option.map_some]

/-- Settles O24: the view is read off the rows of the framebuffer, and the operation only leaves the queue. -/
theorem viewIsRowMajorAndReadOnly : Obligations.ViewIsRowMajorAndReadOnly := fun s _ hops =>
  ⟨step_of_hostOps hops, view_cells_length s, fun _ _ hx hy => view_cells_getElem? s hx hy, rfl, rfl, rfl⟩

end Sys2Proof.Machine
end

section
/-! Single instructions and the cycle around them: what no instruction reads (40_cycle.md R150, 45_keypad.md R362), a
return after a call, the key wait, the timer instructions, and the shape of a `Running` cycle (40_cycle.md R153). -/

namespace Sys2Proof.Machine

variable {i : Instr} {s t : State}

/-! ## `KeyPrev` and `rand` -/

/-- `s` with another previous sample and another random byte. -/
def State.reinput (s : State) (keys : Vector Bool 16) (r : Byte) : State := { s with keyPrev := keys, rand := r }

/-- The same change in the next state of an answer. -/
def reinputNext (keys : Vector Bool 16) (r : Byte) :
    Host.Outcome State Fault Refusal → Host.Outcome State Fault Refusal
  | .next t => .next (t.reinput keys r)
  | .fault f => .fault f
  | .refused f => .refused f

theorem reinput_pop (s : State) (keys : Vector Bool 16) (r : Byte) :
    (s.reinput keys r).pop = s.pop.map fun p => (p.1, p.2.reinput keys r) := by
  rcases pop_cases s with ⟨j, hj, h⟩ | ⟨hempty, h⟩ <;> rw [h]
  · exact pop_at (s := s.reinput keys r) hj
  · exact pop_empty (s := s.reinput keys r) hempty

theorem reinput_push (s : State) (keys : Vector Bool 16) (r : Byte) (w : Word) :
    (s.reinput keys r).push w = (s.push w).map (·.reinput keys r) := by
  rcases push_cases s w with ⟨hlt, h⟩ | ⟨hfull, h⟩ <;> rw [h]
  · exact push_at (s := s.reinput keys r) (j := ⟨s.sp.val, hlt⟩) w rfl
  · exact push_full (s := s.reinput keys r) w hfull

theorem reinput_readBytes (s : State) (keys : Vector Bool 16) (r : Byte) (a n : Nat) :
    (s.reinput keys r).readBytes a n = s.readBytes a n := by
  induction n generalizing a with
  | zero => rfl
  | succ n ih => exact congrArg (s.readByte a :: ·) (ih (a + 1))

theorem reinput_bytesAtI (s : State) (keys : Vector Bool 16) (r : Byte) (n : Nat) :
    (s.reinput keys r).bytesAtI n = s.bytesAtI n := by
  rw [State.bytesAtI, reinput_readBytes]
  rfl

theorem reinput_storeAtI (s : State) (keys : Vector Bool 16) (r : Byte) (vs : List Byte) :
    (s.reinput keys r).storeAtI vs = (s.storeAtI vs).map (·.reinput keys r) := by
  rcases storeAtI_cases s vs with ⟨hin, h⟩ | ⟨hout, h⟩ <;> rw [h]
  · exact if_pos hin
  · exact if_neg (Bool.not_eq_true _ ▸ hout)

theorem reinput_writeRF (s : State) (keys : Vector Bool 16) (r : Byte) (x : Reg) (b : Byte) (f : Bool) :
    (s.reinput keys r).writeRF x b f = (s.writeRF x b f).reinput keys r := by
  by_cases hx : x = regF
  · cases horder : s.params.flagOrder <;> simp only [State.writeRF, State.reinput, hx, horder, if_true] <;> rfl
  · simp only [State.writeRF, if_neg hx]
    rfl

/-- An instruction commutes with the change of an input that it does not read. -/
theorem exec_reinput (i : Instr) (s : State) (keys : Vector Bool 16) (r : Byte)
    (hr : r = s.rand ∨ ∀ x nn, i ≠ .rnd x nn) :
    exec i (s.reinput keys r) = reinputNext keys r (exec i s) := by
  cases i with
  | rnd x nn =>
    obtain rfl := hr.resolve_right fun h => h x nn rfl
    rfl
  | ret =>
    simp only [exec, execRet, reinput_pop]
    cases s.pop <;> rfl
  | call nnn =>
    have hpc : (s.reinput keys r).pc = s.pc := rfl
    simp only [exec, execCall, hpc, reinput_push]
    cases s.push s.pc <;> rfl
  | drw x y n =>
    simp only [exec, execDrw, reinput_bytesAtI]
    cases s.bytesAtI n.toNat <;> rfl
  | ldVxMem x =>
    simp only [exec, execLdVxMem, reinput_bytesAtI]
    cases s.bytesAtI (x.val + 1) <;> rfl
  | ldBVx x =>
    have hreg : (s.reinput keys r).reg x = s.reg x := rfl
    simp only [exec, execLdBVx, hreg, reinput_storeAtI]
    cases s.storeAtI (bcdDigits (s.reg x)) <;> rfl
  | ldMemVx x =>
    have hregs : (s.reinput keys r).regsThrough x = s.regsThrough x := rfl
    simp only [exec, execLdMemVx, hregs, reinput_storeAtI]
    cases s.storeAtI (s.regsThrough x) <;> rfl
  | skp x =>
    have hkey : (s.reinput keys r).keyNumber x = s.keyNumber x := rfl
    simp only [exec, execSkp, hkey]
    cases s.keyNumber x <;> rfl
  | sknp x =>
    have hkey : (s.reinput keys r).keyNumber x = s.keyNumber x := rfl
    simp only [exec, execSknp, hkey]
    cases s.keyNumber x <;> rfl
  | addReg | sub | shr | subn | shl => exact congrArg Host.Outcome.next (reinput_writeRF ..)
  | cls | jp | seImm | sneImm | seReg | ldImm | addImm | ldReg | orReg | andReg | xorReg | sneReg | ldI | jpV0
  | ldVxDt | ldVxK | ldDtVx | ldStVx | addIVx | ldFVx => rfl

/-- Settles O34: each clause changes one of the two inputs and leaves the other one at its value. -/
theorem randAndPreviousKeysAreNotRead : Obligations.RandAndPreviousKeysAreNotRead := by
  intro i s t h
  have hkeeps := exec_keeps h
  have hcommute (keys : Vector Bool 16) (r : Byte) (hr : r = s.rand ∨ ∀ x nn, i ≠ .rnd x nn) :
      exec i (s.reinput keys r) = .next (t.reinput keys r) :=
    (exec_reinput i s keys r hr).trans (congrArg (reinputNext keys r) h)
  have hrand (keys : Vector Bool 16) : t.reinput keys s.rand = { t with keyPrev := keys } := by
    rw [← hkeeps.rand]
    rfl
  have hkeys (r : Byte) : t.reinput s.keyPrev r = { t with rand := r } := by
    rw [← hkeeps.keyPrev]
    rfl
  exact ⟨fun keys => (hcommute keys s.rand (.inl rfl)).trans (congrArg _ (hrand keys)),
    fun hrnd r => (hcommute s.keyPrev r (.inr hrnd)).trans (congrArg _ (hkeys r))⟩

/-! ## A return after a call (10_state.md R38) -/

/-- Settles O37: the return pops the slot that the call pushed. -/
theorem returnUndoesCall : Obligations.ReturnUndoesCall := by
  intro s t nnn pc hroom h
  cases h.symm.trans (exec_call_at (j := ⟨s.sp.val, hroom⟩) nnn rfl)
  rw [exec_ret_at (j := ⟨s.sp.val, hroom⟩) rfl]
  simp

/-! ## The key wait and the timers -/

/-- Settles O57: `Fx0A` writes `Exec` and `WaitReg`. -/
theorem keyWaitIsEntered : Obligations.KeyWaitIsEntered := fun _ _ => ⟨rfl, _, rfl, rfl, rfl, rfl⟩

theorem soundEvent_on {old v : Byte} (h : v.toNat ≥ 1) : soundEvent old v = [.audioOn] :=
  if_pos (by rintro rfl; exact absurd h (by decide))

theorem soundEvent_off {old v : Byte} (hv : v.toNat = 0) (hold : old.toNat > 0) : soundEvent old v = [.audioOff] := by
  obtain rfl : v = 0 := BitVec.eq_of_toNat_eq hv
  exact (if_neg (by decide)).trans (if_pos (by rintro rfl; exact absurd hold (by decide)))

theorem soundEvent_none {old v : Byte} (hv : v.toNat = 0) (hold : old.toNat = 0) : soundEvent old v = [] := by
  obtain rfl : v = 0 := BitVec.eq_of_toNat_eq hv
  obtain rfl : old = 0 := BitVec.eq_of_toNat_eq hold
  rfl

/-- Settles O58: the events of `Fx18` are those before it and its own sound event. -/
theorem timerInstructions : Obligations.TimerInstructions := fun s x =>
  ⟨rfl, rfl, rfl, ⟨_, rfl, rfl, setReg_v_same s x s.dt, fun z hz => setReg_v_other s x s.dt z hz⟩, rfl, _, rfl, rfl,
    fun hv => congrArg (s.events ++ ·) (soundEvent_on hv),
    fun hv hst => congrArg (s.events ++ ·) (soundEvent_off hv hst),
    fun hv hst => (congrArg (s.events ++ ·) (soundEvent_none hv hst)).trans (List.append_nil _)⟩

/-! ## A `Running` cycle (R153) -/

theorem exec_answers_next (i : Instr) (s : State) : ∃ t, exec i s = .next t := by
  rcases exec_cases i s with ⟨t, ht, _⟩ | ⟨_, _, hr⟩
  · exact ⟨t, ht⟩
  · exact ⟨_, hr.exec_eq⟩

/-- Settles O8: the fetched word is dispatched, and what follows dispatch ends the cycle by `Exec` and the coupling. -/
theorem stepRunsDecodedInstruction : Obligations.StepRunsDecodedInstruction := by
  intro s s0 keys rand i htakes hrun hok hd
  have hfetched := step_fetched htakes hrun hok
  obtain ⟨_, ops, n, rfl⟩ := step_of_takesCycle htakes
  obtain ⟨t, ht⟩ := exec_answers_next i
    (State.advance (State.beginCycle { s with hostOps := ops, draws := n } keys rand))
  have hstep := hfetched.trans (dispatchWord_of_decode hd ht)
  have hcoupling : t.params.timerCoupling = s.params.timerCoupling :=
    congrArg Params.timerCoupling (exec_keeps ht).params
  refine ⟨t, ht, fun hfault => ?_, fun hlive hc => ?_, fun hlive hc => ?_⟩
  · rw [hstep, afterExec_faulted t hfault]
    rfl
  · rw [hstep, afterExec_live t hlive, endCycle_coupled t .ok (hcoupling.trans hc)]
  · rw [hstep, afterExec_live t hlive, endCycle_decoupled t .ok (hcoupling.trans hc)]

end Sys2Proof.Machine
end
